-- ==== Sys2Proof/Word.lean ====
section
/-! DEFINITION. The word types of QRV-CORE (20_memory.md R60, 00_scope.md R9, R12). -/

namespace Sys2Proof

/-- A codeword, a text byte, an element of GF(256): 8 bits (R9). -/
abbrev Byte := BitVec 8

/-- The host data word and the command word: 32 bits (R60, R80). -/
abbrev Word := BitVec 32

/-- A host port address: 24 bits, space number in bits 23:20, element index in bits 19:0 (R60, R61). -/
abbrev Addr := BitVec 24

end Sys2Proof
end

