-- ==== Sys2Proof/Syntax.lean ====
section
/-! DEFINITION. The commands of QRV-CORE: one constructor per row of the opcode map (30_encoding.md R85).
An operand has exactly the width of its field (R82 to R84). -/

namespace Sys2Proof

/-- The 21 commands of 30_encoding.md R85, in the table's order. -/
inductive Instr where
  /-- NOP (48_sequencer.md R300). -/
  | nop
  /-- SRESET (48_sequencer.md R301). -/
  | sreset
  /-- GFMUL a, b (41_gf256.md R136). -/
  | gfmul (a b : BitVec 8)
  /-- GFGEN n (41_gf256.md R139). -/
  | gfgen (n : BitVec 8)
  /-- RSENC k, n (42_rs_encoder.md R152). -/
  | rsenc (k n : BitVec 8)
  /-- RSSYN N, n (43_rs_decoder.md R172); `len` is the rule's `N`. -/
  | rssyn (len n : BitVec 8)
  /-- RSCOR N, n (43_rs_decoder.md R175); `len` is the rule's `N`. -/
  | rscor (len n : BitVec 8)
  /-- ANALYZE (40_mode_and_bit_packer.md R106). -/
  | analyze
  /-- PACK (40_mode_and_bit_packer.md R115). -/
  | pack
  /-- RSSPLIT (42_rs_encoder.md R156). -/
  | rssplit
  /-- RSILV (42_rs_encoder.md R158). -/
  | rsilv
  /-- MATINIT (44_matrix_rasterizer.md R203). -/
  | matinit
  /-- MATPLACE (44_matrix_rasterizer.md R208). -/
  | matplace
  /-- MASKEVAL (45_mask_penalty.md R240). -/
  | maskeval
  /-- MASKSEL (45_mask_penalty.md R242). -/
  | masksel
  /-- INFOSTAMP (44_matrix_rasterizer.md R213). -/
  | infostamp
  /-- ENCODE (48_sequencer.md R302). -/
  | encode
  /-- FMTENC level, mask (46_bch_format.md R263): level code and mask pattern. -/
  | fmtenc (level : BitVec 2) (mask : BitVec 3)
  /-- FMTDEC raw (46_bch_format.md R266). -/
  | fmtdec (raw : BitVec 15)
  /-- VERENC version (47_bch_version.md R283). -/
  | verenc (version : BitVec 6)
  /-- VERDEC raw (47_bch_version.md R286). -/
  | verdec (raw : BitVec 18)
  deriving DecidableEq, Repr

end Sys2Proof
end

