-- ==== Sys2Proof/Decode.lean ====
section
/-! DEFINITION. The command decoder, total on 32-bit words, and the encoder (30_encoding.md R80 to R86). -/

namespace Sys2Proof

/-- Why a word is no command (R86): the opcode is in no row of R85, or a must-be-zero field of its row is not zero. Both
raise IllegalCommand. -/
inductive Illegal where
  | unassignedOpcode
  | reservedBitsSet
  deriving DecidableEq, Repr

/-! ### Fields of the command word (R80 to R84) -/

/-- `w[31:24]`, the opcode (R80). -/
def opcodeField (w : Word) : BitVec 8 := w.extractLsb' 24 8

/-- `w[23:16]`, operand `a` of formats AB and A (R82, R83). -/
def aField (w : Word) : BitVec 8 := w.extractLsb' 16 8

/-- `w[15:8]`, operand `b` of format AB (R82). -/
def bField (w : Word) : BitVec 8 := w.extractLsb' 8 8

/-- `i` if the must-be-zero field reads 0, else the rejection of R86. -/
def checked (zero : Bool) (i : Instr) : Except Illegal Instr :=
  if zero then .ok i else .error .reservedBitsSet

/-- Format Z: bits 23:0 must be 0 (R81). -/
def formatZ (w : Word) (i : Instr) : Except Illegal Instr :=
  checked (w.extractLsb' 0 24 == 0) i

/-- Format AB: bits 7:0 must be 0 (R82). -/
def formatAB (w : Word) (mk : BitVec 8 → BitVec 8 → Instr) : Except Illegal Instr :=
  checked (w.extractLsb' 0 8 == 0) (mk (aField w) (bField w))

/-- Format A: bits 15:0 must be 0 (R83). -/
def formatA (w : Word) (mk : BitVec 8 → Instr) : Except Illegal Instr :=
  checked (w.extractLsb' 0 16 == 0) (mk (aField w))

/-- Format I with an immediate of `width` bits: bits 23:width must be 0 (R84). -/
def formatI (w : Word) (width : Nat) (mk : BitVec width → Instr) : Except Illegal Instr :=
  checked (w.extractLsb' width (24 - width) == 0) (mk (w.extractLsb' 0 width))

/-! ### The decoder -/

/-- The row of the opcode map that the word selects, with its operands (R80, R85), or why there is none (R86). -/
def decode (w : Word) : Except Illegal Instr :=
  match opcodeField w with
  | 0x00#8 => formatZ w .nop
  | 0x01#8 => formatZ w .sreset
  | 0x10#8 => formatAB w .gfmul
  | 0x11#8 => formatA w .gfgen
  | 0x20#8 => formatAB w .rsenc
  | 0x21#8 => formatAB w .rssyn
  | 0x22#8 => formatAB w .rscor
  | 0x30#8 => formatZ w .analyze
  | 0x31#8 => formatZ w .pack
  | 0x32#8 => formatZ w .rssplit
  | 0x33#8 => formatZ w .rsilv
  | 0x34#8 => formatZ w .matinit
  | 0x35#8 => formatZ w .matplace
  | 0x36#8 => formatZ w .maskeval
  | 0x37#8 => formatZ w .masksel
  | 0x38#8 => formatZ w .infostamp
  | 0x3F#8 => formatZ w .encode
  | 0x40#8 => formatI w 5 fun imm => .fmtenc (imm.extractLsb' 3 2) (imm.extractLsb' 0 3)
  | 0x41#8 => formatI w 15 .fmtdec
  | 0x42#8 => formatI w 6 .verenc
  | 0x43#8 => formatI w 18 .verdec
  | _ => .error .unassignedOpcode

/-! ### The encoder -/

/-- Format Z (R81): `op ‖ 0[23:0]`. -/
def wordZ (op : BitVec 8) : Word := op ++ 0#24

/-- Format AB (R82): `op ‖ a ‖ b ‖ 0[7:0]`. -/
def wordAB (op a b : BitVec 8) : Word := op ++ a ++ b ++ 0#8

/-- Format A (R83): `op ‖ a ‖ 0[15:0]`. -/
def wordA (op a : BitVec 8) : Word := op ++ a ++ 0#16

/-- The command's word (R81 to R85). -/
def encode : Instr → Word
  | .nop => wordZ 0x00
  | .sreset => wordZ 0x01
  | .gfmul a b => wordAB 0x10 a b
  | .gfgen n => wordA 0x11 n
  | .rsenc k n => wordAB 0x20 k n
  | .rssyn len n => wordAB 0x21 len n
  | .rscor len n => wordAB 0x22 len n
  | .analyze => wordZ 0x30
  | .pack => wordZ 0x31
  | .rssplit => wordZ 0x32
  | .rsilv => wordZ 0x33
  | .matinit => wordZ 0x34
  | .matplace => wordZ 0x35
  | .maskeval => wordZ 0x36
  | .masksel => wordZ 0x37
  | .infostamp => wordZ 0x38
  | .encode => wordZ 0x3F
  | .fmtenc level mask => 0x40#8 ++ 0#19 ++ level ++ mask
  | .fmtdec raw => 0x41#8 ++ 0#9 ++ raw
  | .verenc version => 0x42#8 ++ 0#18 ++ version
  | .verdec raw => 0x43#8 ++ 0#6 ++ raw

/-- The instruction the decoder reads from the table's word `w` of `nbits` bits (a command is one 32-bit word written to
`REG.CMD`, R80; bits above `nbits` are 0). -/
def decodeTableWord (nbits w : Nat) : Option Instr :=
  (decode (BitVec.ofNat 32 (w % 2 ^ nbits))).toOption

end Sys2Proof
end

