-- ==== Sys2Proof/Config.lean ====
section
/-! DEFINITION. What a core instance fixes and what the spec leaves open: the shape of the reference tables
(49_config_tables.md), the data modes, and the free values (constants with no body, of which no value can be proved). -/

namespace Sys2Proof

/-- The data modes of 00_scope.md R17; `kanji` is recognised and downgraded to `byte` (R104). -/
inductive Mode where
  | numeric
  | alphanumeric
  | byte
  | kanji
  deriving DecidableEq, Repr, Inhabited

/-- The three values `EMPTY_TEXT_MODE` may have (40_mode_and_bit_packer.md R105). -/
inductive EmptyTextMode where
  | numeric
  | alphanumeric
  | byte
  deriving DecidableEq, Repr, Inhabited

/-- An EC block plan: `ec` check codewords per block and the groups `(blockCount, dataCodewordCount)` in declared
order (00_scope.md R17, 42_rs_encoder.md R154). -/
structure Plan where
  ec : Nat
  groups : List (Nat × Nat)
  deriving DecidableEq, Repr, Inhabited

/-- The four reference tables (49_config_tables.md R320, R321). `cap` and `ecplan` hold one row per version 1 to 40, and
a row one entry per level code `M = 0, L = 1, H = 2, Q = 3`; `align` one row per version; `verref` one entry per
version 7 to 40. -/
structure Rom where
  cap : List (List Nat)
  ecplan : List (List Plan)
  align : List (List Nat)
  verref : List (BitVec 18)
  deriving DecidableEq, Repr

/-- FREE VALUE (U1, Log 4): the word from which the `i`-th unspecified host read takes its element. -/
opaque Config.freeWord : Nat → Word

/-- FREE VALUE (U3, Log 5): the byte that a TEXT or BLK element nothing has written since the reset of the given epoch
holds; the second argument is the element's port address. -/
opaque Config.powerOnByte : Nat → Nat → Byte

/-- OPEN PARAMETER `EMPTY_TEXT_MODE` (R105, D15, Log 7). -/
opaque Config.emptyTextMode : EmptyTextMode

/-- OPEN PARAMETER `IS_KANJI_TEXT` (R104, D16, Log 8), before R104's constraint, which `kanjiText` applies. -/
opaque Config.isKanjiText : List Byte → Bool

end Sys2Proof
end

