-- ==== Sys2Proof/Machine/Tables.lean ====
section
/-! DEFINITION. The ROM contents: the GF(256) tables as 41_gf256.md R140 prints them (constants of every core, R48), and
the default contents of the four reference tables (49_config_tables.md R324 to R327). -/

namespace Sys2Proof.Machine

/-! ### The GF(256) tables (R131, R132, R140), sixteen entries a row as R140 prints them -/

/-- Rows 0 to 127 of `EXP[0..255]` (R140). -/
def expRowsLow : List (List Nat) := [
  [1, 2, 4, 8, 16, 32, 64, 128, 29, 58, 116, 232, 205, 135, 19, 38],
  [76, 152, 45, 90, 180, 117, 234, 201, 143, 3, 6, 12, 24, 48, 96, 192],
  [157, 39, 78, 156, 37, 74, 148, 53, 106, 212, 181, 119, 238, 193, 159, 35],
  [70, 140, 5, 10, 20, 40, 80, 160, 93, 186, 105, 210, 185, 111, 222, 161],
  [95, 190, 97, 194, 153, 47, 94, 188, 101, 202, 137, 15, 30, 60, 120, 240],
  [253, 231, 211, 187, 107, 214, 177, 127, 254, 225, 223, 163, 91, 182, 113, 226],
  [217, 175, 67, 134, 17, 34, 68, 136, 13, 26, 52, 104, 208, 189, 103, 206],
  [129, 31, 62, 124, 248, 237, 199, 147, 59, 118, 236, 197, 151, 51, 102, 204]]

/-- Rows 128 to 255 of `EXP[0..255]` (R140). -/
def expRowsHigh : List (List Nat) := [
  [133, 23, 46, 92, 184, 109, 218, 169, 79, 158, 33, 66, 132, 21, 42, 84],
  [168, 77, 154, 41, 82, 164, 85, 170, 73, 146, 57, 114, 228, 213, 183, 115],
  [230, 209, 191, 99, 198, 145, 63, 126, 252, 229, 215, 179, 123, 246, 241, 255],
  [227, 219, 171, 75, 150, 49, 98, 196, 149, 55, 110, 220, 165, 87, 174, 65],
  [130, 25, 50, 100, 200, 141, 7, 14, 28, 56, 112, 224, 221, 167, 83, 166],
  [81, 162, 89, 178, 121, 242, 249, 239, 195, 155, 43, 86, 172, 69, 138, 9],
  [18, 36, 72, 144, 61, 122, 244, 245, 247, 243, 251, 235, 203, 139, 11, 22],
  [44, 88, 176, 125, 250, 233, 207, 131, 27, 54, 108, 216, 173, 71, 142, 1]]

/-- `EXP[0..255]`, sixteen entries a row (R140). -/
def expRows : List (List Nat) := expRowsLow ++ expRowsHigh

/-- Rows 0 to 127 of `LOG[0..255]`, with `LOG[0]` = 0 (R132, Log 9) (R140). -/
def logRowsLow : List (List Nat) := [
  [0, 0, 1, 25, 2, 50, 26, 198, 3, 223, 51, 238, 27, 104, 199, 75],
  [4, 100, 224, 14, 52, 141, 239, 129, 28, 193, 105, 248, 200, 8, 76, 113],
  [5, 138, 101, 47, 225, 36, 15, 33, 53, 147, 142, 218, 240, 18, 130, 69],
  [29, 181, 194, 125, 106, 39, 249, 185, 201, 154, 9, 120, 77, 228, 114, 166],
  [6, 191, 139, 98, 102, 221, 48, 253, 226, 152, 37, 179, 16, 145, 34, 136],
  [54, 208, 148, 206, 143, 150, 219, 189, 241, 210, 19, 92, 131, 56, 70, 64],
  [30, 66, 182, 163, 195, 72, 126, 110, 107, 58, 40, 84, 250, 133, 186, 61],
  [202, 94, 155, 159, 10, 21, 121, 43, 78, 212, 229, 172, 115, 243, 167, 87]]

/-- Rows 128 to 255 of `LOG[0..255]`, with `LOG[0]` = 0 (R132, Log 9) (R140). -/
def logRowsHigh : List (List Nat) := [
  [7, 112, 192, 247, 140, 128, 99, 13, 103, 74, 222, 237, 49, 197, 254, 24],
  [227, 165, 153, 119, 38, 184, 180, 124, 17, 68, 146, 217, 35, 32, 137, 46],
  [55, 63, 209, 91, 149, 188, 207, 205, 144, 135, 151, 178, 220, 252, 190, 97],
  [242, 86, 211, 171, 20, 42, 93, 158, 132, 60, 57, 83, 71, 109, 65, 162],
  [31, 45, 67, 216, 183, 123, 164, 118, 196, 23, 73, 236, 127, 12, 111, 246],
  [108, 161, 59, 82, 41, 157, 85, 170, 251, 96, 134, 177, 187, 204, 62, 90],
  [203, 89, 95, 176, 156, 169, 160, 81, 11, 245, 22, 235, 122, 117, 44, 215],
  [79, 174, 213, 233, 230, 231, 173, 232, 116, 214, 244, 234, 168, 80, 88, 175]]

/-- `LOG[0..255]`, with `LOG[0]` = 0 (R132, Log 9), sixteen entries a row (R140). -/
def logRows : List (List Nat) := logRowsLow ++ logRowsHigh

/-- `ROM.EXP[i]`, `i` in 0..255 (R48, R131). -/
def gfExp (i : Nat) : Byte := BitVec.ofNat 8 ((expRows.getD (i / 16) []).getD (i % 16) 0)

/-- `ROM.LOG[a]` (R48, R132), as a number. -/
def gfLog (a : Byte) : Nat := (logRows.getD (a.toNat / 16) []).getD (a.toNat % 16) 0

/-! ### Default contents of the reference tables -/

/-- R324, versions 1 to 10: data codewords for levels L, M, Q, H. -/
def capRows0 : List (List Nat) := [
  [19, 16, 13, 9],
  [34, 28, 22, 16],
  [55, 44, 34, 26],
  [80, 64, 48, 36],
  [108, 86, 62, 46],
  [136, 108, 76, 60],
  [156, 124, 88, 66],
  [194, 154, 110, 86],
  [232, 182, 132, 100],
  [274, 216, 154, 122]]

/-- R324, versions 11 to 20: data codewords for levels L, M, Q, H. -/
def capRows1 : List (List Nat) := [
  [324, 254, 180, 140],
  [370, 290, 206, 158],
  [428, 334, 244, 180],
  [461, 365, 261, 197],
  [523, 415, 295, 223],
  [589, 453, 325, 253],
  [647, 507, 367, 283],
  [721, 563, 397, 313],
  [795, 627, 445, 341],
  [861, 669, 485, 385]]

/-- R324, versions 21 to 30: data codewords for levels L, M, Q, H. -/
def capRows2 : List (List Nat) := [
  [932, 714, 512, 406],
  [1006, 782, 568, 442],
  [1094, 860, 614, 464],
  [1174, 914, 664, 514],
  [1276, 1000, 718, 538],
  [1370, 1062, 754, 596],
  [1468, 1128, 808, 628],
  [1531, 1193, 871, 661],
  [1631, 1267, 911, 701],
  [1735, 1373, 985, 745]]

/-- R324, versions 31 to 40: data codewords for levels L, M, Q, H. -/
def capRows3 : List (List Nat) := [
  [1843, 1455, 1033, 793],
  [1955, 1541, 1115, 845],
  [2071, 1631, 1171, 901],
  [2191, 1725, 1231, 961],
  [2306, 1812, 1286, 986],
  [2434, 1914, 1354, 1054],
  [2566, 1992, 1426, 1096],
  [2702, 2102, 1502, 1142],
  [2812, 2216, 1582, 1222],
  [2956, 2334, 1666, 1276]]

/-- R324: one row per version 1 to 40, data codewords for levels L, M, Q, H. -/
def capRows : List (List Nat) := capRows0 ++ capRows1 ++ capRows2 ++ capRows3

/-- R325, versions 1 to 10: the plans of levels L, M, Q, H. -/
def planRows0 : List (List Plan) := [
  [⟨7, [(1, 19)]⟩, ⟨10, [(1, 16)]⟩, ⟨13, [(1, 13)]⟩, ⟨17, [(1, 9)]⟩],
  [⟨10, [(1, 34)]⟩, ⟨16, [(1, 28)]⟩, ⟨22, [(1, 22)]⟩, ⟨28, [(1, 16)]⟩],
  [⟨15, [(1, 55)]⟩, ⟨26, [(1, 44)]⟩, ⟨18, [(2, 17)]⟩, ⟨22, [(2, 13)]⟩],
  [⟨20, [(1, 80)]⟩, ⟨18, [(2, 32)]⟩, ⟨26, [(2, 24)]⟩, ⟨16, [(4, 9)]⟩],
  [⟨26, [(1, 108)]⟩, ⟨24, [(2, 43)]⟩, ⟨18, [(2, 15), (2, 16)]⟩, ⟨22, [(2, 11), (2, 12)]⟩],
  [⟨18, [(2, 68)]⟩, ⟨16, [(4, 27)]⟩, ⟨24, [(4, 19)]⟩, ⟨28, [(4, 15)]⟩],
  [⟨20, [(2, 78)]⟩, ⟨18, [(4, 31)]⟩, ⟨18, [(2, 14), (4, 15)]⟩, ⟨26, [(4, 13), (1, 14)]⟩],
  [⟨24, [(2, 97)]⟩, ⟨22, [(2, 38), (2, 39)]⟩, ⟨22, [(4, 18), (2, 19)]⟩, ⟨26, [(4, 14), (2, 15)]⟩],
  [⟨30, [(2, 116)]⟩, ⟨22, [(3, 36), (2, 37)]⟩, ⟨20, [(4, 16), (4, 17)]⟩, ⟨24, [(4, 12), (4, 13)]⟩],
  [⟨18, [(2, 68), (2, 69)]⟩, ⟨26, [(4, 43), (1, 44)]⟩, ⟨24, [(6, 19), (2, 20)]⟩, ⟨28, [(6, 15), (2, 16)]⟩]]

/-- R325, versions 11 to 20: the plans of levels L, M, Q, H. -/
def planRows1 : List (List Plan) := [
  [⟨20, [(4, 81)]⟩, ⟨30, [(1, 50), (4, 51)]⟩, ⟨28, [(4, 22), (4, 23)]⟩, ⟨24, [(3, 12), (8, 13)]⟩],
  [⟨24, [(2, 92), (2, 93)]⟩, ⟨22, [(6, 36), (2, 37)]⟩, ⟨26, [(4, 20), (6, 21)]⟩, ⟨28, [(7, 14), (4, 15)]⟩],
  [⟨26, [(4, 107)]⟩, ⟨22, [(8, 37), (1, 38)]⟩, ⟨24, [(8, 20), (4, 21)]⟩, ⟨22, [(12, 11), (4, 12)]⟩],
  [⟨30, [(3, 115), (1, 116)]⟩, ⟨24, [(4, 40), (5, 41)]⟩, ⟨20, [(11, 16), (5, 17)]⟩, ⟨24, [(11, 12), (5, 13)]⟩],
  [⟨22, [(5, 87), (1, 88)]⟩, ⟨24, [(5, 41), (5, 42)]⟩, ⟨30, [(5, 24), (7, 25)]⟩, ⟨24, [(11, 12), (7, 13)]⟩],
  [⟨24, [(5, 98), (1, 99)]⟩, ⟨28, [(7, 45), (3, 46)]⟩, ⟨24, [(15, 19), (2, 20)]⟩, ⟨30, [(3, 15), (13, 16)]⟩],
  [⟨28, [(1, 107), (5, 108)]⟩, ⟨28, [(10, 46), (1, 47)]⟩, ⟨28, [(1, 22), (15, 23)]⟩, ⟨28, [(2, 14), (17, 15)]⟩],
  [⟨30, [(5, 120), (1, 121)]⟩, ⟨26, [(9, 43), (4, 44)]⟩, ⟨28, [(17, 22), (1, 23)]⟩, ⟨28, [(2, 14), (19, 15)]⟩],
  [⟨28, [(3, 113), (4, 114)]⟩, ⟨26, [(3, 44), (11, 45)]⟩, ⟨26, [(17, 21), (4, 22)]⟩, ⟨26, [(9, 13), (16, 14)]⟩],
  [⟨28, [(3, 107), (5, 108)]⟩, ⟨26, [(3, 41), (13, 42)]⟩, ⟨30, [(15, 24), (5, 25)]⟩, ⟨28, [(15, 15), (10, 16)]⟩]]

/-- R325, versions 21 to 30: the plans of levels L, M, Q, H. -/
def planRows2 : List (List Plan) := [
  [⟨28, [(4, 116), (4, 117)]⟩, ⟨26, [(17, 42)]⟩, ⟨28, [(17, 22), (6, 23)]⟩, ⟨30, [(19, 16), (6, 17)]⟩],
  [⟨28, [(2, 111), (7, 112)]⟩, ⟨28, [(17, 46)]⟩, ⟨30, [(7, 24), (16, 25)]⟩, ⟨24, [(34, 13)]⟩],
  [⟨30, [(4, 121), (5, 122)]⟩, ⟨28, [(4, 47), (14, 48)]⟩, ⟨30, [(11, 24), (14, 25)]⟩, ⟨30, [(16, 15), (14, 16)]⟩],
  [⟨30, [(6, 117), (4, 118)]⟩, ⟨28, [(6, 45), (14, 46)]⟩, ⟨30, [(11, 24), (16, 25)]⟩, ⟨30, [(30, 16), (2, 17)]⟩],
  [⟨26, [(8, 106), (4, 107)]⟩, ⟨28, [(8, 47), (13, 48)]⟩, ⟨30, [(7, 24), (22, 25)]⟩, ⟨30, [(22, 15), (13, 16)]⟩],
  [⟨28, [(10, 114), (2, 115)]⟩, ⟨28, [(19, 46), (4, 47)]⟩, ⟨28, [(28, 22), (6, 23)]⟩, ⟨30, [(33, 16), (4, 17)]⟩],
  [⟨30, [(8, 122), (4, 123)]⟩, ⟨28, [(22, 45), (3, 46)]⟩, ⟨30, [(8, 23), (26, 24)]⟩, ⟨30, [(12, 15), (28, 16)]⟩],
  [⟨30, [(3, 117), (10, 118)]⟩, ⟨28, [(3, 45), (23, 46)]⟩, ⟨30, [(4, 24), (31, 25)]⟩, ⟨30, [(11, 15), (31, 16)]⟩],
  [⟨30, [(7, 116), (7, 117)]⟩, ⟨28, [(21, 45), (7, 46)]⟩, ⟨30, [(1, 23), (37, 24)]⟩, ⟨30, [(19, 15), (26, 16)]⟩],
  [⟨30, [(5, 115), (10, 116)]⟩, ⟨28, [(19, 47), (10, 48)]⟩, ⟨30, [(15, 24), (25, 25)]⟩, ⟨30, [(23, 15), (25, 16)]⟩]]

/-- R325, versions 31 to 40: the plans of levels L, M, Q, H. -/
def planRows3 : List (List Plan) := [
  [⟨30, [(13, 115), (3, 116)]⟩, ⟨28, [(2, 46), (29, 47)]⟩, ⟨30, [(42, 24), (1, 25)]⟩, ⟨30, [(23, 15), (28, 16)]⟩],
  [⟨30, [(17, 115)]⟩, ⟨28, [(10, 46), (23, 47)]⟩, ⟨30, [(10, 24), (35, 25)]⟩, ⟨30, [(19, 15), (35, 16)]⟩],
  [⟨30, [(17, 115), (1, 116)]⟩, ⟨28, [(14, 46), (21, 47)]⟩, ⟨30, [(29, 24), (19, 25)]⟩, ⟨30, [(11, 15), (46, 16)]⟩],
  [⟨30, [(13, 115), (6, 116)]⟩, ⟨28, [(14, 46), (23, 47)]⟩, ⟨30, [(44, 24), (7, 25)]⟩, ⟨30, [(59, 16), (1, 17)]⟩],
  [⟨30, [(12, 121), (7, 122)]⟩, ⟨28, [(12, 47), (26, 48)]⟩, ⟨30, [(39, 24), (14, 25)]⟩, ⟨30, [(22, 15), (41, 16)]⟩],
  [⟨30, [(6, 121), (14, 122)]⟩, ⟨28, [(6, 47), (34, 48)]⟩, ⟨30, [(46, 24), (10, 25)]⟩, ⟨30, [(2, 15), (64, 16)]⟩],
  [⟨30, [(17, 122), (4, 123)]⟩, ⟨28, [(29, 46), (14, 47)]⟩, ⟨30, [(49, 24), (10, 25)]⟩, ⟨30, [(24, 15), (46, 16)]⟩],
  [⟨30, [(4, 122), (18, 123)]⟩, ⟨28, [(13, 46), (32, 47)]⟩, ⟨30, [(48, 24), (14, 25)]⟩, ⟨30, [(42, 15), (32, 16)]⟩],
  [⟨30, [(20, 117), (4, 118)]⟩, ⟨28, [(40, 47), (7, 48)]⟩, ⟨30, [(43, 24), (22, 25)]⟩, ⟨30, [(10, 15), (67, 16)]⟩],
  [⟨30, [(19, 118), (6, 119)]⟩, ⟨28, [(18, 47), (31, 48)]⟩, ⟨30, [(34, 24), (34, 25)]⟩, ⟨30, [(20, 15), (61, 16)]⟩]]

/-- R325: one row per version 1 to 40, the plans of levels L, M, Q, H. -/
def planRows : List (List Plan) := planRows0 ++ planRows1 ++ planRows2 ++ planRows3

/-- R326, versions 1 to 20. -/
def alignRows0 : List (List Nat) := [
  [],
  [6, 18],
  [6, 22],
  [6, 26],
  [6, 30],
  [6, 34],
  [6, 22, 38],
  [6, 24, 42],
  [6, 26, 46],
  [6, 28, 50],
  [6, 30, 54],
  [6, 32, 58],
  [6, 34, 62],
  [6, 26, 46, 66],
  [6, 26, 48, 70],
  [6, 26, 50, 74],
  [6, 30, 54, 78],
  [6, 30, 56, 82],
  [6, 30, 58, 86],
  [6, 34, 62, 90]]

/-- R326, versions 21 to 40. -/
def alignRows1 : List (List Nat) := [
  [6, 28, 50, 72, 94],
  [6, 26, 50, 74, 98],
  [6, 30, 54, 78, 102],
  [6, 28, 54, 80, 106],
  [6, 32, 58, 84, 110],
  [6, 30, 58, 86, 114],
  [6, 34, 62, 90, 118],
  [6, 26, 50, 74, 98, 122],
  [6, 30, 54, 78, 102, 126],
  [6, 26, 52, 78, 104, 130],
  [6, 30, 56, 82, 108, 134],
  [6, 34, 60, 86, 112, 138],
  [6, 30, 58, 86, 114, 142],
  [6, 34, 62, 90, 118, 146],
  [6, 30, 54, 78, 102, 126, 150],
  [6, 24, 50, 76, 102, 128, 154],
  [6, 28, 54, 80, 106, 132, 158],
  [6, 32, 58, 84, 110, 136, 162],
  [6, 26, 54, 82, 110, 138, 166],
  [6, 30, 58, 86, 114, 142, 170]]

/-- R326: alignment-pattern centre coordinates, one row per version 1 to 40. -/
def alignRows : List (List Nat) := alignRows0 ++ alignRows1

/-- R327, R284: the version codes of versions 7 to 40. -/
def verrefDefault : List (BitVec 18) := [
  0x07C94, 0x085BC, 0x09A99, 0x0A4D3, 0x0BBF6, 0x0C762, 0x0D847, 0x0E60D,
  0x0F928, 0x10B78, 0x1145D, 0x12A17, 0x13532, 0x149A6, 0x15683, 0x168C9,
  0x177EC, 0x18EC4, 0x191E1, 0x1AFAB, 0x1B08E, 0x1CC1A, 0x1D33F, 0x1ED75,
  0x1F250, 0x209D5, 0x216F0, 0x228BA, 0x2379F, 0x24B0B, 0x2542E, 0x26A64,
  0x27541, 0x28C69]

/-- A row printed in the order L, M, Q, H, put in the order of the level codes `M = 0, L = 1, H = 2, Q = 3` (R320). -/
def byLevelCode {α : Type} (dflt : α) (row : List α) : List α :=
  [row.getD 1 dflt, row.getD 0 dflt, row.getD 3 dflt, row.getD 2 dflt]

/-- The default contents of the reference tables (R324 to R327); `CAP` in bits, 8 times R324's entry. -/
def defaultRom : Rom where
  cap := capRows.map fun row => byLevelCode 0 (row.map (8 * ·))
  ecplan := planRows.map (byLevelCode ⟨0, []⟩)
  align := alignRows
  verref := verrefDefault

/-! ### Reading the reference tables (R321) -/

/-- `CAP[v][lc]`, in bits; 0 outside versions 1 to 40. -/
def capOf (rom : Rom) (v : Nat) (lc : BitVec 2) : Nat :=
  if v = 0 then 0 else (rom.cap.getD (v - 1) []).getD lc.toNat 0

/-- `ECPLAN[v][lc]`; no blocks outside versions 1 to 40. -/
def planOf (rom : Rom) (v : Nat) (lc : BitVec 2) : Plan :=
  if v = 0 then ⟨0, []⟩ else (rom.ecplan.getD (v - 1) []).getD lc.toNat ⟨0, []⟩

/-- `ALIGN[v]`; no coordinates outside versions 1 to 40. -/
def alignOf (rom : Rom) (v : Nat) : List Nat :=
  if v = 0 then [] else rom.align.getD (v - 1) []

/-- `VERREF[v]` for `v` in 7..40; other entries read 0 (R321). -/
def verrefOf (rom : Rom) (v : Nat) : BitVec 18 :=
  if 7 ≤ v ∧ v ≤ 40 then rom.verref.getD (v - 7) 0 else 0

end Sys2Proof.Machine
end

