-- ==== Sys2Proof/Machine/State.lean ====
section
/-! DEFINITION. The state of QRV-CORE as plain data (10_state.md R20 to R51), the reasons a step can stop, and the state
right after hardware reset (70_reset_and_hazards.md R370). INVENTORY.md lists every field with its rule. -/

namespace Sys2Proof.Machine

/-- The module types of 10_state.md R44, in the order of their codes 0 to 7. -/
inductive ModuleType where
  | empty
  | finder
  | separator
  | timing
  | alignment
  | format
  | version
  | data
  deriving DecidableEq, Repr, Inhabited

/-- A module value (00_scope.md R13, 10_state.md R45): `0` light, `1` dark, `2` empty (the spec's `E`). -/
inductive Module where
  | light
  | dark
  | empty
  deriving DecidableEq, Repr, Inhabited

/-- A matrix, as its list of rows from row 0 down, each row from column 0 (R13). -/
abbrev Grid (α : Type) := List (List α)

/-- What the host does at the core's pins (R60, R370): a port read, a port write (a write of `REG.CMD` issues a command,
R22), or the hardware reset input. -/
inductive HostEvent where
  | read (addr : Addr)
  | write (addr : Addr) (word : Word)
  | reset
  deriving DecidableEq, Repr

/-- One row `PEN[p]` of the penalty registers (10_state.md R35), `k` = 0 to 5 in this order. -/
structure Penalty where
  n1 : Word
  n2 : Word
  n3 : Word
  n4 : Word
  total : Word
  dark : Word
  deriving DecidableEq, Repr

/-- The host-writable buffers TEXT and BLK as pairs of a port address and a byte (20_memory.md R60, R61). -/
abbrev Memory := List Host.Cell

/-- The canonical form of memory: addresses strictly rising. An unlisted address holds the unspecified power-on byte of
`Config.powerOnByte`, a free value that no listed byte is compared with (Log 5). -/
abbrev Memory.wf (m : Memory) : Prop := m.Pairwise fun c d => c.1 < d.1

/-- The state of one core instance. -/
structure State where
  /-- MODEL'S OWN (Log 1): what the host will do next, oldest first. -/
  pending : List HostEvent
  /-- MODEL'S OWN (Log 15): the word the last HostRead returned (R60). -/
  hostData : Word
  /-- MODEL'S OWN (Log 4): which free value the next unspecified host read takes. -/
  freeCtr : Nat
  /-- MODEL'S OWN (Log 5): which unspecified power-on contents TEXT and BLK have. -/
  memEpoch : Nat
  /-- PARAMETER (R49, R320, Log 3): the reference tables of this core instance; no step changes them. -/
  rom : Rom
  /-- `STATUS.DONE` (R23). -/
  done : Bool
  /-- `STATUS.ERR` (R23). -/
  err : Bool
  /-- `STATUS.HALT` (R23). -/
  halt : Bool
  /-- `STATUS.NOTICE` (R23). -/
  notice : Bool
  /-- `REG.ERRCODE` (R26). -/
  errcode : BitVec 4
  /-- `REG.ERRINFO` (R26). -/
  errinfo : Word
  /-- `REG.VALID` (R24): bit 0 GFRDY, 1 ANALYZED, 2 PACKED, 3 SPLIT, 4 ILV, 5 MINIT, 6 PLACED, 7 EVALD, 8 SELD,
  9 STAMPED, 10 GENV, 11 SYNV. -/
  valid : BitVec 12
  /-- MODEL'S OWN (Log 6): bit k says that the registers of group k of `valid` hold a value a rule gives. -/
  held : BitVec 12
  /-- `REG.VERSION` (R27). -/
  version : BitVec 6
  /-- `REG.LEVEL` (R27), the level code L = 01, M = 00, Q = 11, H = 10. -/
  level : BitVec 2
  /-- `REG.LEN` (R27). -/
  len : BitVec 13
  /-- `REG.MODE` (R28), the mode indicator of R107. -/
  mode : BitVec 4
  /-- `REG.MINVER` (R28). -/
  minver : BitVec 6
  /-- `REG.ANVALID` (R28). -/
  anvalid : Bool
  /-- `REG.USEDBITS` (R29). -/
  usedbits : BitVec 15
  /-- `REG.CAPBITS` (R29). -/
  capbits : BitVec 15
  /-- `REG.NDCW` (R29). -/
  ndcw : BitVec 12
  /-- `REG.NBLK` (R30). -/
  nblk : BitVec 7
  /-- `REG.NEC` (R30). -/
  nec : BitVec 8
  /-- `REG.NICW` (R30). -/
  nicw : BitVec 12
  /-- `REG.SIZE` (R31). -/
  size : BitVec 8
  /-- `REG.NDATA` (R31). -/
  ndata : BitVec 15
  /-- `REG.MASKSEL` (R32). -/
  masksel : BitVec 3
  /-- `REG.FORMATINFO` (R33). -/
  formatinfo : BitVec 15
  /-- `REG.VERSIONINFO` (R33, R280): absent (`PRESENT` = 0), or present with its 18-bit code. -/
  versioninfo : Option (BitVec 18)
  /-- `REG.RES0` (R34). -/
  res0 : Word
  /-- `REG.RES1` (R34), two's complement. -/
  res1 : Word
  /-- `REG.RES2` (R34). -/
  res2 : Word
  /-- `REG.PEN[0..7]` (R35). -/
  pen : Vector Penalty 8
  /-- The buffers TEXT (R40) and BLK (R46). -/
  mem : Memory
  /-- `BITS` (R41). -/
  bits : List Bool
  /-- `DCW` (R41). -/
  dcw : List Byte
  /-- `DBLK` (R42), one list per block. -/
  dblk : List (List Byte)
  /-- `EBLK` (R42), one list per block. -/
  eblk : List (List Byte)
  /-- `ICW` (R43). -/
  icw : List Byte
  /-- `MTYPE` (R44). -/
  mtype : Grid ModuleType
  /-- `MFUNC` (R45). -/
  mfunc : Grid Module
  /-- `MPRE` (R45). -/
  mpre : Grid Module
  /-- `MCAND[0..7]` (R45). -/
  mcand : Vector (Grid Module) 8
  /-- `MFINAL` (R45). -/
  mfinal : Grid Module
  /-- `GEN` (R47) with its current length. -/
  gen : List Byte
  /-- `SYN` (R47) with its current length. -/
  syn : List Byte
  deriving DecidableEq, Repr

/-- Why a step stops with a fault: never. Every command word is a command or raises an error the host reads (R86), and every
host address is defined (R62); 93_implementation_defined.md treats nothing as `fault` or `stuck`. -/
inductive Fault where
  deriving DecidableEq, Repr

/-- Why a step refuses. -/
inductive Refusal where
  /-- Raised by `exec`'s arm of an instruction that has no meaning in this model yet; safe. -/
  | notModelled (mnemonic : String)
  deriving DecidableEq, Repr

/-- The outcome of a step or of a command of this core. -/
abbrev Outcome := Host.Outcome State Fault Refusal

/-- All six penalty registers of one candidate at their reset value. -/
def Penalty.zero : Penalty := ⟨0, 0, 0, 0, 0, 0⟩

/-- The state right after hardware reset (R370, R50): VALID = 0x001, every other register 0, TEXT and BLK unspecified
(nothing listed), the read-only buffers unspecified (empty lists that no command and no host read sees, Log 19), the
reference tables at their default contents (Log 3). -/
def State.reset : State where
  pending := []
  hostData := 0
  freeCtr := 0
  memEpoch := 0
  rom := defaultRom
  done := false
  err := false
  halt := false
  notice := false
  errcode := 0
  errinfo := 0
  valid := 0x001
  held := 0xFFF
  version := 0
  level := 0
  len := 0
  mode := 0
  minver := 0
  anvalid := false
  usedbits := 0
  capbits := 0
  ndcw := 0
  nblk := 0
  nec := 0
  nicw := 0
  size := 0
  ndata := 0
  masksel := 0
  formatinfo := 0
  versioninfo := none
  res0 := 0
  res1 := 0
  res2 := 0
  pen := Vector.replicate 8 Penalty.zero
  mem := []
  bits := []
  dcw := []
  dblk := []
  eblk := []
  icw := []
  mtype := []
  mfunc := []
  mpre := []
  mcand := Vector.replicate 8 []
  mfinal := []
  gen := []
  syn := []

end Sys2Proof.Machine
end

