-- ==== Sys2Proof/Machine/Flags.lean ====
section
/-! DEFINITION. The flags of QRV-CORE: the bits of REG.VALID and REG.STATUS (10_state.md R23 to R25, R37;
60_exceptions.md R343). There are no arithmetic condition codes (R37). -/

namespace Sys2Proof.Machine

/-! ### Numbers of the bits of REG.VALID (R24) -/

abbrev GFRDY : Nat := 0
abbrev ANALYZED : Nat := 1
abbrev PACKED : Nat := 2
abbrev SPLIT : Nat := 3
abbrev ILV : Nat := 4
abbrev MINIT : Nat := 5
abbrev PLACED : Nat := 6
abbrev EVALD : Nat := 7
abbrev SELD : Nat := 8
abbrev STAMPED : Nat := 9
abbrev GENV : Nat := 10
abbrev SYNV : Nat := 11

/-- Bit `k` of `REG.VALID` (R24). -/
def isValid (k : Nat) (s : State) : Bool := s.valid.getLsbD k

/-- The mask of bit `k`. -/
def validBit (k : Nat) : BitVec 12 := 1#12 <<< k

/-- The mask of the stage bits `lo` to 9 (R25). -/
def stagesFrom (lo : Nat) : BitVec 12 := (0x3FF#12 >>> lo) <<< lo

/-- `VALID[9:lo] <- 0` (R25, R88). The registers of the cleared groups then hold unspecified values (R25 (e), Log 6). -/
def clearStages (lo : Nat) (s : State) : State :=
  { s with valid := s.valid &&& ~~~stagesFrom lo, held := s.held &&& ~~~stagesFrom lo }

/-- `VALID` bit `k` `<- 1` (R25, R88), once the outputs of group `k` are written. -/
def markValid (k : Nat) (s : State) : State :=
  { s with valid := s.valid ||| validBit k, held := s.held ||| validBit k }

/-- The registers of group `k` are written although its valid bit is not set (ANALYZE raising DataTooLarge, R106, R347). -/
def markHeld (k : Nat) (s : State) : State :=
  { s with held := s.held ||| validBit k }

/-- `REG.STATUS` as the host reads it (R23): bit 0 BUSY = 0, 1 DONE, 2 ERR, 3 HALT, 4 NOTICE. -/
def statusWord (s : State) : BitVec 5 :=
  BitVec.ofBool s.notice ++ BitVec.ofBool s.halt ++ BitVec.ofBool s.err ++ BitVec.ofBool s.done ++ 0#1

/-- `PRESENT = 1` in bit 31 above an 18-bit code, or 0 for "absent": the layout of `REG.VERSIONINFO` (R33), which VERENC's
`RES0` shares (R283). -/
def presentWord : Option (BitVec 18) → Word
  | none => 0
  | some v => 1#1 ++ 0#13 ++ v

end Sys2Proof.Machine
end

