-- ==== Sys2Proof/Machine/Ops.lean ====
section
/-! DEFINITION. The operations every command is built from: the memory of TEXT and BLK, raising an error (60_exceptions.md
R341) and completing (30_encoding.md R80), and the checks before a rule runs (R80, R342). -/

namespace Sys2Proof.Machine

/-! ### TEXT and BLK (10_state.md R40, R46; 20_memory.md R61) -/

/-- Port address of `TEXT[0]`: space 1 (R61). -/
def textBase : Nat := 0x100000

/-- Port address of `BLK[0]`: space 12 (R61). -/
def blkBase : Nat := 0xC00000

/-- The byte listed at an address, if any. -/
def findCell (a : Nat) : Memory → Option Byte
  | [] => none
  | c :: m => if c.1 = a then some c.2 else findCell a m

/-- Memory with a byte at an address, in canonical form. -/
def insertCell (a : Nat) (b : Byte) : Memory → Memory
  | [] => [(a, b)]
  | c :: m =>
    if a < c.1 then (a, b) :: c :: m
    else if a = c.1 then (a, b) :: m
    else c :: insertCell a b m

/-- The byte of TEXT or BLK at a port address; one that nothing has written since reset is unspecified (U3, Log 5). -/
def readByte (s : State) (a : Nat) : Byte :=
  (findCell a s.mem).getD (Config.powerOnByte s.memEpoch a)

/-- Writing one byte of TEXT or BLK. -/
def writeByte (a : Nat) (b : Byte) (s : State) : State :=
  { s with mem := insertCell a b s.mem }

/-- The bytes at `a, a+1, ..., a+n-1`. -/
def readBytes (s : State) (a n : Nat) : List Byte :=
  (List.range n).map fun i => readByte s (a + i)

/-- Memory with the bytes at `a, a+1, ...`. -/
def insertCells (a : Nat) : List Byte → Memory → Memory
  | [], m => m
  | b :: bs, m => insertCells (a + 1) bs (insertCell a b m)

/-- Writing consecutive bytes of TEXT or BLK. -/
def writeBytes (a : Nat) (bs : List Byte) (s : State) : State :=
  { s with mem := insertCells a bs s.mem }

/-! ### Errors -/

/-- The errors of 60_exceptions.md R340. -/
inductive Error where
  | dataTooLarge
  | bchUncorrectable
  | structuralInconsistency
  | rsUncorrectable
  | sequenceError
  | illegalCommand
  | badOperand
  | halted
  deriving DecidableEq, Repr

/-- The error codes of R340. -/
def errorCode : Error → BitVec 4
  | .dataTooLarge => 1
  | .bchUncorrectable => 2
  | .structuralInconsistency => 3
  | .rsUncorrectable => 4
  | .sequenceError => 5
  | .illegalCommand => 6
  | .badOperand => 7
  | .halted => 8

/-- The one fatal error (R340, R344). -/
def isFatal (e : Error) : Bool := e == .structuralInconsistency

/-- `raise e(w)` (R341): the error report, and HALT for the fatal error. Nothing else changes. -/
def raise (e : Error) (w : Word) (s : State) : State :=
  { s with done := false, err := true, errcode := errorCode e, errinfo := w, halt := s.halt || isFatal e }

/-- A command completes (R80): the report of success. -/
def complete (s : State) : State :=
  { s with done := true, err := false, errcode := 0, errinfo := 0 }

/-! ### A command's rule and the checks before it -/

/-- How a command's rule ends: in the state it wrote, or raising an error after what it wrote (R341). -/
inductive RuleResult where
  | done (s : State)
  | raised (e : Error) (s : State)
  deriving DecidableEq, Repr

/-- The next rule runs where the one before it completed; the first error ends the sequence (R302). -/
def RuleResult.andThen (r : RuleResult) (next : State → RuleResult) : RuleResult :=
  match r with
  | .done s => next s
  | .raised e s => .raised e s

/-- The status update after the rule of the command word `w` (R80, R341). -/
def conclude (w : Word) : RuleResult → State
  | .done s => complete s
  | .raised e s => raise e w s

/-- A command word in execution (R80, R342): the Halted check (R346), the operand range check (R87), the precondition on
`REG.VALID` (R88), then the rule. IllegalCommand comes before the operand check and is `rejectWord`'s. -/
def command (i : Instr) (operandsOk ready : Bool) (rule : State → RuleResult) (s : State) : State :=
  if s.halt then raise .halted (encode i) s
  else if !operandsOk then raise .badOperand (encode i) s
  else if !ready then raise .sequenceError (encode i) s
  else conclude (encode i) (rule s)

/-- A word that is no command (R86): IllegalCommand, or Halted while HALT is set, when it is not even decoded (R346). -/
def rejectWord (w : Word) (s : State) : State :=
  if s.halt then raise .halted w s else raise .illegalCommand w s

end Sys2Proof.Machine
end

