-- ==== Sys2Proof/Machine/Operands.lean ====
section
/-! DEFINITION. The operand forms of the commands: word operands and their ranges (30_encoding.md R82 to R84, R87), register
operands (R27), buffer operands (10_state.md R40, R46), and the expansion of numbers into bits (00_scope.md R12). -/

namespace Sys2Proof.Machine

/-! ### Ranges of the operands (R87) -/

/-- GFGEN: `n ≤ 254`. -/
def gfgenInRange (n : BitVec 8) : Bool := decide (n.toNat ≤ 254)

/-- RSENC: `k + n ≤ 255`. -/
def rsencInRange (k n : BitVec 8) : Bool := decide (k.toNat + n.toNat ≤ 255)

/-- RSSYN, RSCOR: `n ≤ N`. -/
def blockInRange (len n : BitVec 8) : Bool := decide (n.toNat ≤ len.toNat)

/-- ANALYZE, ENCODE: `REG.VERSION` in 1..40. -/
def versionInRange (s : State) : Bool := decide (1 ≤ s.version.toNat ∧ s.version.toNat ≤ 40)

/-! ### Buffer operands -/

/-- `TEXT[0..LEN-1]` (R40). -/
def textBytes (s : State) : List Byte := readBytes s textBase s.len.toNat

/-- `BLK[0..n-1]` (R46). -/
def blkBytes (s : State) (n : Nat) : List Byte := readBytes s blkBase n

/-- `BLK[i..] <- bs`. -/
def writeBlk (i : Nat) (bs : List Byte) (s : State) : State := writeBytes (blkBase + i) bs s

/-! ### Register operands that index the reference tables -/

/-- `ROM.CAP[REG.VERSION][REG.LEVEL]`, in bits. -/
def currentCap (s : State) : Nat := capOf s.rom s.version.toNat s.level

/-- `ROM.ECPLAN[REG.VERSION][REG.LEVEL]`. -/
def currentPlan (s : State) : Plan := planOf s.rom s.version.toNat s.level

/-! ### Bits (R12, R65) -/

/-- `bits_n(v)`: the `n` low bits of `v`, most significant first. -/
def bitsMsb (n v : Nat) : List Bool := (List.range n).map fun i => v.testBit (n - 1 - i)

/-- The number whose bits are given most significant first. -/
def natOfBits (bs : List Bool) : Nat := bs.foldl (fun v b => 2 * v + b.toNat) 0

end Sys2Proof.Machine
end

