-- ==== Sys2Proof/Machine/BchFormat.lean ====
section
/-! DEFINITION. The BCH(15,5) code of format information: FMTENC, FMTDEC (46_bch_format.md R260 to R268). Arithmetic over
GF(2): bit `i` is the coefficient of `x^i`. -/

namespace Sys2Proof.Machine

/-- `G15` (R261). -/
def g15 : BitVec 15 := 0b10100110111

/-- One round of the division of R261 at bit `i`. -/
def rem15Step (v : BitVec 15) (i : Nat) : BitVec 15 :=
  if v.getLsbD i then v ^^^ (g15 <<< (i - 10)) else v

/-- `rem15(v)` (R261). -/
def rem15 (v : BitVec 15) : BitVec 10 :=
  ([14, 13, 12, 11, 10].foldl rem15Step v).extractLsb' 0 10

/-- The fixed XOR mask of format information (R262). -/
def formatMask : BitVec 15 := 0b101010000010010

/-- The unmasked codeword of five data bits (R262): `data << 10 | remainder`. -/
def fmtCodeword (data : BitVec 5) : BitVec 15 :=
  let shifted : BitVec 15 := data ++ 0#10
  shifted ||| (rem15 shifted).setWidth 15

/-- `fmtcode(levelcode, mask)` (R260, R262). -/
def fmtcode (level : BitVec 2) (mask : BitVec 3) : BitVec 15 :=
  fmtCodeword (level ++ mask) ^^^ formatMask

/-- The effect of FMTENC level, mask (R263). -/
def ruleFmtenc (level : BitVec 2) (mask : BitVec 3) (s : State) : RuleResult :=
  .done { s with res0 := (fmtcode level mask).setWidth 32 }

/-- FMTENC level, mask (R263): no precondition, no operand range. -/
def execFmtenc (level : BitVec 2) (mask : BitVec 3) (s : State) : Outcome :=
  .next (command (.fmtenc level mask) true true (ruleFmtenc level mask) s)

/-! ### Decoding -/

/-- All pairs `i < j` below `n` (R265, R285). -/
def pairsBelow (n : Nat) : List (Nat × Nat) :=
  (List.range n).flatMap fun j => (List.range j).map fun i => (i, j)

/-- All triples `i < j < k` below `n` (R265, R285). -/
def triplesBelow (n : Nat) : List (Nat × Nat × Nat) :=
  (List.range n).flatMap fun k => (pairsBelow k).map fun ij => (ij.1, ij.2, k)

/-- The value with bit `i` flipped. -/
def flipBit {n : Nat} (w : BitVec n) (i : Nat) : BitVec n := w ^^^ (1 <<< i)

/-- A corrected word and the number of flips that correct it. -/
structure Correction (n : Nat) where
  word : BitVec n
  errors : Nat
  deriving DecidableEq, Repr

/-- The single-bit syndrome table `T15` (R265, R267). -/
def t15 (i : Nat) : BitVec 10 := rem15 (1 <<< i)

/-- The correction step of `fmtdecode` on an unmasked word (R265): syndrome 0, then the single-bit table, then the pairs and
the triples until a zero syndrome is found. -/
def fmtCorrect (w : BitVec 15) : Option (Correction 15) :=
  if rem15 w = 0 then some ⟨w, 0⟩
  else
    match (List.range 15).find? fun i => rem15 w == t15 i with
    | some i => some ⟨flipBit w i, 1⟩
    | none =>
      match (pairsBelow 15).find? fun p => rem15 (flipBit (flipBit w p.1) p.2) == 0 with
      | some p => some ⟨flipBit (flipBit w p.1) p.2, 2⟩
      | none =>
        match (triplesBelow 15).find? fun t => rem15 (flipBit (flipBit (flipBit w t.1) t.2.1) t.2.2) == 0 with
        | some t => some ⟨flipBit (flipBit (flipBit w t.1) t.2.1) t.2.2, 3⟩
        | none => none

/-- `fmtdecode(raw)` (R265): the mask is removed first; the correction's word is the corrected unmasked codeword. -/
def fmtdecode (raw : BitVec 15) : Option (Correction 15) := fmtCorrect (raw ^^^ formatMask)

/-- The sentinel both BCH decoders write before they raise (R266, R286, R348). -/
def writeNullResult (s : State) : State := { s with res0 := 0, res1 := 0xFFFFFFFF, res2 := 0 }

/-- The effect of FMTDEC raw (R266). -/
def ruleFmtdec (raw : BitVec 15) (s : State) : RuleResult :=
  match fmtdecode raw with
  | some c => .done { s with
      res0 := (c.word.extractLsb' 10 5).setWidth 32
      res1 := BitVec.ofNat 32 c.errors
      res2 := (c.word ^^^ formatMask).setWidth 32 }
  | none => .raised .bchUncorrectable (writeNullResult s)

/-- FMTDEC raw (R266): no precondition, no operand range. -/
def execFmtdec (raw : BitVec 15) (s : State) : Outcome :=
  .next (command (.fmtdec raw) true true (ruleFmtdec raw) s)

end Sys2Proof.Machine
end

