-- ==== Sys2Proof/Machine/BchVersion.lean ====
section
/-! DEFINITION. The BCH(18,6) code of version information: VERENC, VERDEC (47_bch_version.md R280 to R288). -/

namespace Sys2Proof.Machine

/-- `G18` (R281). -/
def g18 : BitVec 18 := 0b1111100100101

/-- One round of the division of R281 at bit `i`. -/
def rem18Step (v : BitVec 18) (i : Nat) : BitVec 18 :=
  if v.getLsbD i then v ^^^ (g18 <<< (i - 12)) else v

/-- `rem18(v)` (R281). -/
def rem18 (v : BitVec 18) : BitVec 12 :=
  ([17, 16, 15, 14, 13, 12].foldl rem18Step v).extractLsb' 0 12

/-- `vercode(v)` (R282): `v << 12 | remainder`, no mask. -/
def vercode (v : BitVec 6) : BitVec 18 :=
  let shifted : BitVec 18 := v ++ 0#12
  shifted ||| (rem18 shifted).setWidth 18

/-- The version information of a version: absent below 7 and above 40 (R280, R283). -/
def versionInformation (v : BitVec 6) : Option (BitVec 18) :=
  if 7 ≤ v.toNat ∧ v.toNat ≤ 40 then some (vercode v) else none

/-- The effect of VERENC version (R283). -/
def ruleVerenc (v : BitVec 6) (s : State) : RuleResult :=
  .done { s with res0 := presentWord (versionInformation v) }

/-- VERENC version (R283): no precondition, no operand range. -/
def execVerenc (v : BitVec 6) (s : State) : Outcome :=
  .next (command (.verenc v) true true (ruleVerenc v) s)

/-! ### Decoding -/

/-- The single-bit syndrome table `T18` (R285, R287). -/
def t18 (i : Nat) : BitVec 12 := rem18 (1 <<< i)

/-- The correction step of `verdecode` (R285). -/
def verCorrect (w : BitVec 18) : Option (Correction 18) :=
  if rem18 w = 0 then some ⟨w, 0⟩
  else
    match (List.range 18).find? fun i => rem18 w == t18 i with
    | some i => some ⟨flipBit w i, 1⟩
    | none =>
      match (pairsBelow 18).find? fun p => rem18 (flipBit (flipBit w p.1) p.2) == 0 with
      | some p => some ⟨flipBit (flipBit w p.1) p.2, 2⟩
      | none =>
        match (triplesBelow 18).find? fun t => rem18 (flipBit (flipBit (flipBit w t.1) t.2.1) t.2.2) == 0 with
        | some t => some ⟨flipBit (flipBit (flipBit w t.1) t.2.1) t.2.2, 3⟩
        | none => none

/-- The version field of a word, `w[17:12]` (R285). -/
def versionField (w : BitVec 18) : BitVec 6 := w.extractLsb' 12 6

/-- Validation (R285, C8): a version 7..40 whose recomputed codeword equals the reference table's. -/
def validated (rom : Rom) (w : BitVec 18) : Bool :=
  decide (7 ≤ (versionField w).toNat ∧ (versionField w).toNat ≤ 40)
    && vercode (versionField w) == verrefOf rom (versionField w).toNat

/-- `verdecode(raw)` (R285): correction, then validation. -/
def verdecode (rom : Rom) (raw : BitVec 18) : Option (Correction 18) :=
  match verCorrect raw with
  | some c => if validated rom c.word then some c else none
  | none => none

/-- The effect of VERDEC raw (R286). -/
def ruleVerdec (raw : BitVec 18) (s : State) : RuleResult :=
  match verdecode s.rom raw with
  | some c => .done { s with
      res0 := (versionField c.word).setWidth 32
      res1 := BitVec.ofNat 32 c.errors
      res2 := c.word.setWidth 32 }
  | none => .raised .bchUncorrectable (writeNullResult s)

/-- VERDEC raw (R286): no precondition, no operand range. -/
def execVerdec (raw : BitVec 18) (s : State) : Outcome :=
  .next (command (.verdec raw) true true (ruleVerdec raw) s)

end Sys2Proof.Machine
end

