-- ==== Sys2Proof/Machine/Rasterizer.lean ====
section
/-! DEFINITION. The matrix rasterizer with the zigzag scanner: MATINIT, MATPLACE, INFOSTAMP
(44_matrix_rasterizer.md R190 to R214). Coordinates are `(row, col)` from the top left (R13). -/

namespace Sys2Proof.Machine

/-! ### Grids -/

/-- Cell `(r, c)` of a grid; the default outside it. -/
def cellAt {α : Type} (dflt : α) (g : Grid α) (r c : Nat) : α := (g.getD r []).getD c dflt

/-- The `size × size` grid with the given cells. -/
def buildGrid {α : Type} (size : Nat) (f : Nat → Nat → α) : Grid α :=
  (List.range size).map fun r => (List.range size).map fun c => f r c

/-- The grid with cell `(r, c)` replaced; unchanged outside the grid (R191). -/
def setCell {α : Type} (g : Grid α) (r c : Nat) (v : α) : Grid α :=
  g.modify r fun row => row.set c v

/-- The module value of a bit: 1 dark, 0 light (R13). -/
def moduleOfBit (b : Bool) : Module := if b then .dark else .light

/-- `|a − b|`. -/
def absDiff (a b : Nat) : Nat := a - b + (b - a)

/-- `size = 4·version + 17` (R190). -/
def matrixSize (version : Nat) : Nat := 4 * version + 17

/-! ### Functional patterns (R191 to R201). Each pattern answers the value it stamps on a cell, or `none`. -/

/-- A stamp's value on cell `(r, c)`, or `none` where it does not touch the cell. -/
abbrev Stamp := Option Module

/-- The finder pattern with top-left cell `(r0, c0)` (R192): light where the distance to the centre is 2. -/
def finderAt (r0 c0 r c : Nat) : Stamp :=
  if r0 ≤ r ∧ r ≤ r0 + 6 ∧ c0 ≤ c ∧ c ≤ c0 + 6 then
    some (if max (absDiff r (r0 + 3)) (absDiff c (c0 + 3)) = 2 then .light else .dark)
  else none

/-- The separator of the finder with top-left cell `(r0, c0)` (R193): the cells at offsets −1..7 that are not in it. -/
def separatorAt (r0 c0 r c : Nat) : Stamp :=
  if r0 ≤ r + 1 ∧ r ≤ r0 + 7 ∧ c0 ≤ c + 1 ∧ c ≤ c0 + 7 ∧ (finderAt r0 c0 r c).isNone then some .light else none

/-- The top-left cells of the three finders (R192). -/
def finderCorners (size : Nat) : List (Nat × Nat) := [(0, 0), (0, size - 7), (size - 7, 0)]

/-- The timing patterns (R194): row 6 and column 6 from 8 to `size−9`, dark at even index. -/
def timingAt (size r c : Nat) : Stamp :=
  if r = 6 ∧ 8 ≤ c ∧ c + 9 ≤ size then some (moduleOfBit (c % 2 == 0))
  else if c = 6 ∧ 8 ≤ r ∧ r + 9 ≤ size then some (moduleOfBit (r % 2 == 0))
  else none

/-- The centres of the alignment patterns (R195), row by row: all pairs of coordinates but the three finder corners. -/
def alignmentCentres (size : Nat) (coords : List Nat) : List (Nat × Nat) :=
  (coords.flatMap fun cr => coords.map fun cc => (cr, cc)).filter fun p =>
    p ≠ (6, 6) ∧ p ≠ (6, size - 7) ∧ p ≠ (size - 7, 6)

/-- The alignment pattern centred at `(cr, cc)` (R195): light where the distance to the centre is 1. -/
def alignmentAt (cr cc r c : Nat) : Stamp :=
  if max (absDiff r cr) (absDiff c cc) ≤ 2 then
    some (if max (absDiff r cr) (absDiff c cc) = 1 then .light else .dark)
  else none

/-- The last of several stamps that touches the cell stands (R191). -/
def lastStamp (stamps : List Stamp) : Stamp := stamps.foldl (fun old new => new.or old) none

/-- `FMT1` (R211). -/
def fmt1Cells : List (Nat × Nat) :=
  [(8, 0), (8, 1), (8, 2), (8, 3), (8, 4), (8, 5), (8, 7), (8, 8),
   (7, 8), (5, 8), (4, 8), (3, 8), (2, 8), (1, 8), (0, 8)]

/-- `FMT2` (R211). -/
def fmt2Cells (size : Nat) : List (Nat × Nat) :=
  [(size - 1, 8), (size - 2, 8), (size - 3, 8), (size - 4, 8), (size - 5, 8), (size - 6, 8), (size - 7, 8),
   (8, size - 8), (8, size - 7), (8, size - 6), (8, size - 5), (8, size - 4), (8, size - 3), (8, size - 2),
   (8, size - 1)]

/-- The cell of bit `i` of the version information in the top-right block (R212). -/
def versionCell (size i : Nat) : Nat × Nat := (i / 3, size - 11 + i % 3)

/-- The cells of both version blocks: the top-right block and its transpose (R212). -/
def versionCells (size : Nat) : List (Nat × Nat) :=
  (List.range 18).map (versionCell size) ++ (List.range 18).map fun i => (versionCell size i).swap

/-- `RESERVED_FILL` (R196, D17). -/
def reservedFill : Module := .light

/-- Cell `(r, c)` of the matrix MATINIT builds for a version and its alignment coordinates: value and type, by the stamps of
R192 to R202 in their order, the last one that touches the cell standing (R191). Read here from the last to the first. -/
def functionCell (version : Nat) (coords : List Nat) (r c : Nat) : Module × ModuleType :=
  let size := matrixSize version
  if r = size - 8 ∧ c = 8 then (.dark, .format)
  else if 7 ≤ version ∧ (r, c) ∈ versionCells size then (reservedFill, .version)
  else if (r, c) ∈ fmt1Cells ∨ (r, c) ∈ fmt2Cells size then (reservedFill, .format)
  else
    match lastStamp ((alignmentCentres size coords).map fun p => alignmentAt p.1 p.2 r c) with
    | some v => (v, .alignment)
    | none =>
      match timingAt size r c with
      | some v => (v, .timing)
      | none =>
        match lastStamp ((finderCorners size).map fun p => separatorAt p.1 p.2 r c) with
        | some v => (v, .separator)
        | none =>
          match lastStamp ((finderCorners size).map fun p => finderAt p.1 p.2 r c) with
          | some v => (v, .finder)
          | none => (.empty, .data)

/-- The number of data-typed cells (R202). -/
def countData (g : Grid ModuleType) : Nat := (g.map fun row => row.countP (· == .data)).sum

/-- The types of MATINIT's matrix (R203). -/
def typeGrid (version : Nat) (coords : List Nat) : Grid ModuleType :=
  buildGrid (matrixSize version) fun r c => (functionCell version coords r c).2

/-- The values of MATINIT's matrix (R203). -/
def functionGrid (version : Nat) (coords : List Nat) : Grid Module :=
  buildGrid (matrixSize version) fun r c => (functionCell version coords r c).1

/-- The effect of MATINIT (R203). -/
def ruleMatinit (s : State) : RuleResult :=
  let version := s.version.toNat
  let coords := alignOf s.rom version
  let types := typeGrid version coords
  .done (markValid MINIT { clearStages MINIT s with
    mtype := types
    mfunc := functionGrid version coords
    size := BitVec.ofNat 8 (matrixSize version)
    ndata := BitVec.ofNat 15 (countData types) })

/-- MATINIT (R203): precondition ILV. -/
def execMatinit (s : State) : Outcome :=
  .next (command .matinit true (isValid ILV s) ruleMatinit s)

/-! ### Placement (R205 to R209) -/

/-- The rows of a column pair in scan direction (R207). -/
def scanRows (size : Nat) (up : Bool) : List Nat :=
  if up then (List.range size).reverse else List.range size

/-- The data-typed cells of the column pair `(col, col−1)` in scan order: the right column before the left (R207). -/
def scanPair (types : Grid ModuleType) (size col : Nat) (up : Bool) : List (Nat × Nat) :=
  (scanRows size up).flatMap fun r =>
    [(r, col), (r, col - 1)].filter fun p => cellAt .empty types p.1 p.2 == .data

/-- The zigzag walk of R207 from column `col` on, for at most `fuel` column pairs. -/
def scanFrom (types : Grid ModuleType) (size : Nat) : Nat → Nat → Bool → List (Nat × Nat)
  | 0, _, _ => []
  | fuel + 1, col, up =>
    if col = 0 then []
    else
      let col := if col = 6 then 5 else col
      scanPair types size col up ++ scanFrom types size fuel (col - 2) (!up)

/-- `scanorder` (R207). -/
def scanOrder (types : Grid ModuleType) (size : Nat) : List (Nat × Nat) :=
  scanFrom types size size (size - 1) true

/-- The placement bit stream of R206 with `r` remainder bits (R205). -/
def placementStream (icw : List Byte) (r : Nat) : List Bool :=
  (icw.flatMap fun w => bitsMsb 8 w.toNat) ++ List.replicate r false

/-- The matrix with bit `i` on cell `i` of the list. -/
def placeBits (g : Grid Module) : List (Nat × Nat) → List Bool → Grid Module
  | p :: ps, b :: bs => placeBits (setCell g p.1 p.2 (moduleOfBit b)) ps bs
  | _, _ => g

/-- The effect of MATPLACE (R208). -/
def ruleMatplace (s : State) : RuleResult :=
  let cleared := clearStages PLACED s
  let codewordBits := 8 * s.nicw.toNat
  let r := s.ndata.toNat - codewordBits
  if s.ndata.toNat < codewordBits ∨ 7 < r then .raised .structuralInconsistency cleared
  else
    .done (markValid PLACED { cleared with
      mpre := placeBits s.mfunc (scanOrder s.mtype s.size.toNat) (placementStream (s.icw.take s.nicw.toNat) r) })

/-- MATPLACE (R208): precondition MINIT. -/
def execMatplace (s : State) : Outcome :=
  .next (command .matplace true (isValid MINIT s) ruleMatplace s)

/-! ### Information stamping (R211 to R214) -/

/-- The 15 bits of format information, bit 14 first (R67, R211). -/
def formatBits (f : BitVec 15) : List Bool := (List.range 15).map fun k => f.getLsbD (14 - k)

/-- The 18 bits of version information, bit 0 first (R68, R212). -/
def versionBits (v : BitVec 18) : List Bool := (List.range 18).map fun i => v.getLsbD i

/-- A candidate with the format information in both strips (R211). -/
def stampFormat (g : Grid Module) (size : Nat) (f : BitVec 15) : Grid Module :=
  placeBits (placeBits g fmt1Cells (formatBits f)) (fmt2Cells size) (formatBits f)

/-- A candidate with the version information in both blocks (R212). -/
def stampVersion (g : Grid Module) (size : Nat) (v : BitVec 18) : Grid Module :=
  placeBits g (versionCells size) (versionBits v ++ versionBits v)

/-- The candidate MASKSEL names. -/
def selectedCandidate (s : State) : Grid Module := s.mcand[s.masksel.toNat]'(s.masksel.isLt)

/-- The effect of INFOSTAMP (R213). -/
def ruleInfostamp (s : State) : RuleResult :=
  let f := fmtcode s.level s.masksel
  let size := matrixSize s.version.toNat
  let m := stampFormat (selectedCandidate s) size f
  let info := if 7 ≤ s.version.toNat then some (vercode s.version) else none
  .done (markValid STAMPED { s with
    formatinfo := f
    versioninfo := info
    mfinal := match info with
      | some v => stampVersion m size v
      | none => m })

/-- INFOSTAMP (R213): precondition SELD. -/
def execInfostamp (s : State) : Outcome :=
  .next (command .infostamp true (isValid SELD s) ruleInfostamp s)

end Sys2Proof.Machine
end

