-- ==== Sys2Proof/Machine/MaskPenalty.lean ====
section
/-! DEFINITION. The mask-penalty pipeline, eight evaluators and the arbiter: MASKEVAL, MASKSEL
(45_mask_penalty.md R230 to R243). -/

namespace Sys2Proof.Machine

/-! ### Masks -/

/-- `pred_p(i, j)` (R233), `i` the row and `j` the column. -/
def maskPredicate (p i j : Nat) : Bool :=
  match p with
  | 0 => (i + j) % 2 == 0
  | 1 => i % 2 == 0
  | 2 => j % 3 == 0
  | 3 => (i + j) % 3 == 0
  | 4 => (i / 2 + j / 3) % 2 == 0
  | 5 => (i * j) % 2 + (i * j) % 3 == 0
  | 6 => ((i * j) % 2 + (i * j) % 3) % 2 == 0
  | 7 => ((i + j) % 2 + (i * j) % 3) % 2 == 0
  | _ => false

/-- `v ^ 1`, with `E ^ 1 = E` (R234). -/
def invertModule : Module → Module
  | .light => .dark
  | .dark => .light
  | .empty => .empty

/-- Candidate `p` (R234): the data-typed cells where the predicate holds are inverted. -/
def candidate (mpre : Grid Module) (mtype : Grid ModuleType) (size p : Nat) : Grid Module :=
  buildGrid size fun r c =>
    let v := cellAt .empty mpre r c
    if cellAt .empty mtype r c == .data && maskPredicate p r c then invertModule v else v

/-! ### Penalties (R235 to R239) -/

/-- The `2·size` lines of a matrix: its rows left to right, then its columns top to bottom (R235). -/
def gridLines (size : Nat) (g : Grid Module) : List (List Module) :=
  (List.range size).map (fun r => (List.range size).map fun c => cellAt .empty g r c)
    ++ (List.range size).map fun c => (List.range size).map fun r => cellAt .empty g r c

/-- The score of a maximal run of `n` cells of value `v` (R236): `3 + (n − 5)` from 5 non-null cells on. -/
def runScore (v : Module) (n : Nat) : Nat := if v ≠ .empty ∧ 5 ≤ n then n - 2 else 0

/-- The run scores of a line whose last `n` cells so far have value `v` (R236); a null cell ends every run (R235). -/
def runScores (v : Module) (n : Nat) : List Module → Nat
  | [] => runScore v n
  | x :: xs => if x = v then runScores v (n + 1) xs else runScore v n + runScores x 1 xs

/-- N1 (R236). -/
def penaltyN1 (size : Nat) (g : Grid Module) : Nat :=
  ((gridLines size g).map (runScores .empty 0)).sum

/-- The 2×2 block with top-left cell `(r, c)` has four identical non-null values (R237). -/
def uniformBlock (g : Grid Module) (r c : Nat) : Bool :=
  let v := cellAt .empty g r c
  v != .empty && cellAt .empty g r (c + 1) == v && cellAt .empty g (r + 1) c == v
    && cellAt .empty g (r + 1) (c + 1) == v

/-- N2 (R237). -/
def penaltyN2 (size : Nat) (g : Grid Module) : Nat :=
  3 * ((List.range (size - 1)).map fun r => (List.range (size - 1)).countP fun c => uniformBlock g r c).sum

/-- The 7-module pattern of R238. -/
def finderSequence : List Module := [.dark, .light, .dark, .dark, .dark, .light, .dark]

/-- The number of windows of a line that match the pattern (R238). -/
def windowMatches : List Module → Nat
  | [] => 0
  | x :: xs => (if finderSequence.isPrefixOf (x :: xs) then 1 else 0) + windowMatches xs

/-- N3 (R238). -/
def penaltyN3 (size : Nat) (g : Grid Module) : Nat :=
  40 * ((gridLines size g).map windowMatches).sum

/-- The number of dark cells (R239). -/
def darkCount (size : Nat) (g : Grid Module) : Nat :=
  ((List.range size).map fun r => (List.range size).countP fun c => cellAt .empty g r c == .dark).sum

/-- N4 for `dark` dark cells of `total` (R239): `10 · floor(|20·dark − 10·total| / total)`. -/
def n4Score (dark total : Nat) : Nat := 10 * (absDiff (20 * dark) (10 * total) / total)

/-- N4 (R239). -/
def penaltyN4 (size : Nat) (g : Grid Module) : Nat := n4Score (darkCount size g) (size * size)

/-- `PEN[p][0..5]` of a candidate (R240). -/
def penaltyOf (size : Nat) (g : Grid Module) : Penalty where
  n1 := BitVec.ofNat 32 (penaltyN1 size g)
  n2 := BitVec.ofNat 32 (penaltyN2 size g)
  n3 := BitVec.ofNat 32 (penaltyN3 size g)
  n4 := BitVec.ofNat 32 (penaltyN4 size g)
  total := BitVec.ofNat 32 (penaltyN1 size g + penaltyN2 size g + penaltyN3 size g + penaltyN4 size g)
  dark := BitVec.ofNat 32 (darkCount size g)

/-- The eight candidates of the current matrix (R234, R240). -/
def candidates (s : State) : Vector (Grid Module) 8 :=
  #v[candidate s.mpre s.mtype s.size.toNat 0, candidate s.mpre s.mtype s.size.toNat 1,
     candidate s.mpre s.mtype s.size.toNat 2, candidate s.mpre s.mtype s.size.toNat 3,
     candidate s.mpre s.mtype s.size.toNat 4, candidate s.mpre s.mtype s.size.toNat 5,
     candidate s.mpre s.mtype s.size.toNat 6, candidate s.mpre s.mtype s.size.toNat 7]

/-- The effect of MASKEVAL (R240): evaluator `p` writes `MCAND[p]` and `PEN[p]` only, so one step does all eight (R232). -/
def ruleMaskeval (s : State) : RuleResult :=
  .done (markValid EVALD { clearStages EVALD s with
    mcand := candidates s
    pen := (candidates s).map (penaltyOf s.size.toNat) })

/-- MASKEVAL (R240): precondition PLACED. -/
def execMaskeval (s : State) : Outcome :=
  .next (command .maskeval true (isValid PLACED s) ruleMaskeval s)

/-! ### The arbiter -/

/-- `select(tot[0..7])` (R241): the least `p` whose total no other total is below. -/
def selectMask (tot : List Nat) : Nat :=
  ((List.range 8).find? fun p => tot.all fun t => decide (tot.getD p 0 ≤ t)).getD 0

/-- The eight totals (R242). -/
def maskTotals (s : State) : List Nat := s.pen.toList.map fun p => p.total.toNat

/-- The effect of MASKSEL (R242). -/
def ruleMasksel (s : State) : RuleResult :=
  .done (markValid SELD { clearStages SELD s with masksel := BitVec.ofNat 3 (selectMask (maskTotals s)) })

/-- MASKSEL (R242): precondition EVALD. -/
def execMasksel (s : State) : Outcome :=
  .next (command .masksel true (isValid EVALD s) ruleMasksel s)

end Sys2Proof.Machine
end

