-- ==== Sys2Proof/Machine/Packer.lean ====
section
/-! DEFINITION. Mode dispatcher and bit-stream packer: ANALYZE, PACK (40_mode_and_bit_packer.md R100 to R121). -/

namespace Sys2Proof.Machine

/-! ### Mode analysis -/

/-- The classes of a text byte (R101); the kanji class is `kanjiText`'s. -/
inductive CharClass where
  | numeric
  | alphanumeric
  | byte
  deriving DecidableEq, Repr

/-- The nine alphanumeric characters that are no letter (R101): space `$ % * + - . / :`. -/
def alphanumericSymbols : List Byte := [0x20, 0x24, 0x25, 0x2A, 0x2B, 0x2D, 0x2E, 0x2F, 0x3A]

/-- The class of a text byte; the numeric test comes first (R101). -/
def charClass (b : Byte) : CharClass :=
  if 0x30 ≤ b ∧ b ≤ 0x39 then .numeric
  else if (0x41 ≤ b ∧ b ≤ 0x5A) ∨ b ∈ alphanumericSymbols then .alphanumeric
  else .byte

/-- `EMPTY_TEXT_MODE` as a mode (R105). -/
def emptyMode : EmptyTextMode → Mode
  | .numeric => .numeric
  | .alphanumeric => .alphanumeric
  | .byte => .byte

/-- `IS_KANJI_TEXT` under its constraint (R104): only a non-empty text all of whose bytes have class `byte`. -/
def kanjiText (text : List Byte) : Bool :=
  !text.isEmpty && text.all (fun b => charClass b == .byte) && Config.isKanjiText text

/-- The dominant mode (R102, R104, R105). -/
def dominantMode (text : List Byte) : Mode :=
  if text.isEmpty then emptyMode Config.emptyTextMode
  else if text.all fun b => charClass b == .numeric then .numeric
  else if text.all fun b => charClass b != .byte then .alphanumeric
  else if kanjiText text then .kanji
  else .byte

/-- UnsupportedMode: kanji is downgraded to byte (R104, R345). -/
def downgrade : Mode → Mode
  | .kanji => .byte
  | m => m

/-- The mode indicator (R107). -/
def modeIndicator : Mode → BitVec 4
  | .numeric => 0b0001
  | .alphanumeric => 0b0010
  | .byte => 0b0100
  | .kanji => 0b1000

/-- The mode that `REG.MODE` names; a code ANALYZE never stores is packed as byte (Log 10). -/
def modeOfIndicator (c : BitVec 4) : Mode :=
  if c = 0b0001 then .numeric else if c = 0b0010 then .alphanumeric else .byte

/-- `ccbits(mode, version)` (R108), by the version bands 1–9, 10–26, 27–40. -/
def ccbits (mode : Mode) (v : Nat) : Nat :=
  match mode with
  | .numeric => if v ≤ 9 then 10 else if v ≤ 26 then 12 else 14
  | .alphanumeric => if v ≤ 9 then 9 else if v ≤ 26 then 11 else 13
  | .byte => if v ≤ 9 then 8 else 16
  | .kanji => if v ≤ 9 then 8 else if v ≤ 26 then 10 else 12

/-- `databits(mode, LEN)` (R109); kanji is packed as byte (R104). -/
def databits (mode : Mode) (len : Nat) : Nat :=
  match mode with
  | .numeric => 10 * (len / 3) + [0, 4, 7].getD (len % 3) 0
  | .alphanumeric => 11 * (len / 2) + 6 * (len % 2)
  | .byte => 8 * len
  | .kanji => 8 * len

/-- `need(v)` of R106: mode indicator, character count and data bits (R110). -/
def needBits (mode : Mode) (len v : Nat) : Nat := 4 + ccbits mode v + databits mode len

/-- The least version 1..40 whose capacity at the level holds the text, if any (R110). -/
def minimumVersion (rom : Rom) (level : BitVec 2) (mode : Mode) (len : Nat) : Option Nat :=
  (List.range' 1 40).find? fun v => decide (needBits mode len v ≤ capOf rom v level)

/-- The mode ANALYZE stores for the current text. -/
def analyzedMode (s : State) : Mode := downgrade (dominantMode (textBytes s))

/-- QRV's `minimumVersion` for the current text and level (R110). -/
def analyzedMinimum (s : State) : Option Nat :=
  minimumVersion s.rom s.level (analyzedMode s) s.len.toNat

/-- The text fits some version and the requested one (R106, R111). -/
def textFits (s : State) : Bool :=
  (analyzedMinimum s).isSome && decide (needBits (analyzedMode s) s.len.toNat s.version.toNat ≤ currentCap s)

/-- What ANALYZE writes before it may raise (R106, R347): MODE, MINVER, ANVALID, NOTICE. -/
def recordAnalysis (s : State) : State :=
  markHeld ANALYZED { clearStages ANALYZED s with
    mode := modeIndicator (analyzedMode s)
    notice := kanjiText (textBytes s)
    minver := BitVec.ofNat 6 ((analyzedMinimum s).getD 40)
    anvalid := (analyzedMinimum s).isSome }

/-- The effect of ANALYZE (R106). -/
def ruleAnalyze (s : State) : RuleResult :=
  if textFits s then .done (markValid ANALYZED (recordAnalysis s))
  else .raised .dataTooLarge (recordAnalysis s)

/-- ANALYZE (R106): precondition GFRDY, `REG.VERSION` in 1..40. -/
def execAnalyze (s : State) : Outcome :=
  .next (command .analyze (versionInRange s) (isValid GFRDY s) ruleAnalyze s)

/-! ### Bit packing -/

/-- The value of a digit byte, `b − 0x30` (R113). -/
def digitValue (b : Byte) : Nat := b.toNat - 0x30

/-- The value of an alphanumeric character (R112). -/
def alphanumericValue (b : Byte) : Nat :=
  if b.toNat ≤ 0x39 ∧ 0x30 ≤ b.toNat then b.toNat - 0x30
  else if 0x41 ≤ b.toNat ∧ b.toNat ≤ 0x5A then b.toNat - 0x41 + 10
  else 36 + alphanumericSymbols.idxOf b

/-- Numeric packing (R113). -/
def packNumeric : List Byte → List Bool
  | a :: b :: c :: rest => bitsMsb 10 (100 * digitValue a + 10 * digitValue b + digitValue c) ++ packNumeric rest
  | [a, b] => bitsMsb 7 (10 * digitValue a + digitValue b)
  | [a] => bitsMsb 4 (digitValue a)
  | [] => []

/-- Alphanumeric packing (R114). -/
def packAlphanumeric : List Byte → List Bool
  | a :: b :: rest => bitsMsb 11 (45 * alphanumericValue a + alphanumericValue b) ++ packAlphanumeric rest
  | [a] => bitsMsb 6 (alphanumericValue a)
  | [] => []

/-- Byte packing (R116). -/
def packByte (text : List Byte) : List Bool := text.flatMap fun b => bitsMsb 8 b.toNat

/-- The data bits of the text in a mode (R113, R114, R116). -/
def dataStream (mode : Mode) (text : List Byte) : List Bool :=
  match mode with
  | .numeric => packNumeric text
  | .alphanumeric => packAlphanumeric text
  | .byte => packByte text
  | .kanji => packByte text

/-- Mode indicator, character count and data (R107, R108, R115). -/
def usedStream (code : BitVec 4) (version : Nat) (text : List Byte) : List Bool :=
  bitsMsb 4 code.toNat
    ++ bitsMsb (ccbits (modeOfIndicator code) version) text.length
    ++ dataStream (modeOfIndicator code) text

/-- Terminator (R117): as many of four zero bits as the capacity leaves room for. -/
def terminated (cap : Nat) (s : List Bool) : List Bool := s ++ List.replicate (min 4 (cap - s.length)) false

/-- Bit padding (R118): zero bits up to the next byte boundary. -/
def bytePadded (s : List Bool) : List Bool := s ++ List.replicate ((8 - s.length % 8) % 8) false

/-- `i` pad codewords from number `start` on (R119): `0xEC` at even numbers, `0x11` at odd ones. -/
def padCodewords (start : Nat) : Nat → List Bool
  | 0 => []
  | i + 1 => bitsMsb 8 (if start % 2 = 0 then 0xEC else 0x11) ++ padCodewords (start + 1) i

/-- Pad codewords while the length is below the capacity (R119). -/
def capacityPadded (cap : Nat) (s : List Bool) : List Bool := s ++ padCodewords 0 ((cap - s.length + 7) / 8)

/-- The finished stream `BITS[0..cap-1]` (R115, R121). -/
def packedStream (cap : Nat) (used : List Bool) : List Bool :=
  (capacityPadded cap (bytePadded (terminated cap used))).take cap

/-- The codewords of a stream (R120): codeword `i` is bits `8i` to `8i+7`, the first most significant. -/
def sliceCodewords (n : Nat) (bits : List Bool) : List Byte :=
  (List.range n).map fun i => BitVec.ofNat 8 (natOfBits ((bits.drop (8 * i)).take 8))

/-- The effect of PACK (R115). -/
def rulePack (s : State) : RuleResult :=
  let cap := currentCap s
  let used := usedStream s.mode s.version.toNat (textBytes s)
  let bits := packedStream cap used
  .done (markValid PACKED { clearStages PACKED s with
    usedbits := BitVec.ofNat 15 used.length
    bits := bits
    capbits := BitVec.ofNat 15 cap
    ndcw := BitVec.ofNat 12 (cap / 8)
    dcw := sliceCodewords (cap / 8) bits })

/-- PACK (R115): precondition ANALYZED. -/
def execPack (s : State) : Outcome :=
  .next (command .pack true (isValid ANALYZED s) rulePack s)

end Sys2Proof.Machine
end

