-- ==== Sys2Proof/Machine/Gf256.lean ====
section
/-! DEFINITION. GF(256) arithmetic, generator polynomials, GFMUL and GFGEN (41_gf256.md R130 to R140). A byte list is a
polynomial with the coefficient of the highest power first (00_scope.md R15). -/

namespace Sys2Proof.Machine

/-- The shift-and-reduce step of R131: a 9-bit shift, then the reduction by `0x11D`. -/
def gfDouble (x : Byte) : Byte :=
  let y : BitVec 9 := x.setWidth 9 <<< 1
  (if y.getLsbD 8 then y ^^^ 0x11D else y).setWidth 8

/-- `gfmul(a, b)` (R134). -/
def gfmul (a b : Byte) : Byte :=
  if a = 0 ∨ b = 0 then 0 else gfExp ((gfLog a + gfLog b) % 255)

/-- The sum of two coefficient lists, index by index, as long as the longer one. -/
def xorLists : List Byte → List Byte → List Byte
  | [], q => q
  | p, [] => p
  | a :: p, b :: q => (a ^^^ b) :: xorLists p q

/-- The product of two polynomials, "convolve with XOR-accumulation" (R137). -/
def polyMul : List Byte → List Byte → List Byte
  | [], _ => []
  | [a], q => q.map (gfmul a)
  | a :: p, q => xorLists (q.map (gfmul a)) (0 :: polyMul p q)

/-- `genpoly(n)` (R137): `[1]` multiplied by `[1, EXP[i]]` for `i` in 0..n-1. -/
def genpoly (n : Nat) : List Byte :=
  (List.range n).foldl (fun g i => polyMul g [1, gfExp i]) [1]

/-- The effect of GFMUL a, b (R136). -/
def ruleGfmul (a b : BitVec 8) (s : State) : RuleResult :=
  .done { s with res0 := (gfmul a b).setWidth 32 }

/-- The effect of GFGEN n (R139). -/
def ruleGfgen (n : BitVec 8) (s : State) : RuleResult :=
  .done (markValid GENV { s with gen := genpoly n.toNat, res0 := n.setWidth 32 })

/-- GFMUL a, b (R136): precondition GFRDY, no operand range. -/
def execGfmul (a b : BitVec 8) (s : State) : Outcome :=
  .next (command (.gfmul a b) true (isValid GFRDY s) (ruleGfmul a b) s)

/-- GFGEN n (R139): precondition GFRDY, `n ≤ 254`. -/
def execGfgen (n : BitVec 8) (s : State) : Outcome :=
  .next (command (.gfgen n) (gfgenInRange n) (isValid GFRDY s) (ruleGfgen n) s)

end Sys2Proof.Machine
end

