-- ==== Sys2Proof/Machine/RsEncoder.lean ====
section
/-! DEFINITION. Reed-Solomon check codewords, block splitting, interleaving: RSENC, RSSPLIT, RSILV
(42_rs_encoder.md R150 to R159). -/

namespace Sys2Proof.Machine

/-- One step of the long division (R151) on the coefficients from the leading one on: with leading coefficient `c`, add
`c` times the generator, which makes the leading coefficient zero, and drop it; skipped where `c = 0`. -/
def divStep (g : List Byte) : List Byte → List Byte
  | [] => []
  | c :: m => if c = 0 then m else (xorLists (c :: m) (g.map (gfmul · c))).tail

/-- `k` steps of the long division (R151). -/
def divide (g : List Byte) : Nat → List Byte → List Byte
  | 0, m => m
  | k + 1, m => divide g k (divStep g m)

/-- `rsecc(data, n)` (R151): what is left of `data ++ [0]*n` after one step for every data codeword. -/
def rsecc (data : List Byte) (n : Nat) : List Byte :=
  divide (genpoly n) data.length (data ++ List.replicate n 0)

/-- The effect of RSENC k, n (R152). -/
def ruleRsenc (k n : BitVec 8) (s : State) : RuleResult :=
  .done (markValid GENV
    { writeBlk k.toNat (rsecc (blkBytes s k.toNat) n.toNat) s with
      gen := genpoly n.toNat, res0 := n.setWidth 32 })

/-- RSENC k, n (R152): precondition GFRDY, `k + n ≤ 255`. -/
def execRsenc (k n : BitVec 8) (s : State) : Outcome :=
  .next (command (.rsenc k n) (rsencInRange k n) (isValid GFRDY s) (ruleRsenc k n) s)

/-! ### Block splitting (R154 to R156) -/

/-- The data codeword count of every block, in the order of R155: `cnt` times `k` for every group in declared order. -/
def blockLengths (groups : List (Nat × Nat)) : List Nat :=
  groups.flatMap fun g => List.replicate g.1 g.2

/-- `Σ_g cnt_g · k_g` (R154). -/
def planData (groups : List (Nat × Nat)) : Nat :=
  (groups.map fun g => g.1 * g.2).sum

/-- `NBLK = Σ_g cnt_g` (R155). -/
def planBlocks (p : Plan) : Nat := (p.groups.map Prod.fst).sum

/-- The codewords of a version and level, data and check together: `CAP/8 + NBLK·ec` (R158, R322). -/
def totalCodewords (rom : Rom) (v : Nat) (lc : BitVec 2) : Nat :=
  capOf rom v lc / 8 + planBlocks (planOf rom v lc) * (planOf rom v lc).ec

/-- The codewords cut sequentially into blocks of the given lengths (R156). -/
def cutBlocks : List Nat → List Byte → List (List Byte)
  | [], _ => []
  | k :: ks, cw => cw.take k :: cutBlocks ks (cw.drop k)

/-- The effect of RSSPLIT (R156). -/
def ruleRssplit (s : State) : RuleResult :=
  let cleared := clearStages SPLIT s
  let plan := currentPlan s
  if planData plan.groups ≠ s.ndcw.toNat then .raised .structuralInconsistency cleared
  else
    let blocks := cutBlocks (blockLengths plan.groups) s.dcw
    .done (markValid SPLIT { cleared with
      dblk := blocks
      eblk := blocks.map fun d => rsecc d plan.ec
      nblk := BitVec.ofNat 7 blocks.length
      nec := BitVec.ofNat 8 plan.ec })

/-- RSSPLIT (R156): precondition PACKED. -/
def execRssplit (s : State) : Outcome :=
  .next (command .rssplit true (isValid PACKED s) ruleRssplit s)

/-! ### Interleaving (R157, R158) -/

/-- Column `i` of the blocks, "skipping blocks once exhausted for that column" (R157). -/
def column (blocks : List (List Byte)) (i : Nat) : List Byte :=
  blocks.filterMap fun b => b[i]?

/-- The blocks read column by column (R157). -/
def columns (blocks : List (List Byte)) : List Byte :=
  (List.range ((blocks.map List.length).foldl max 0)).flatMap (column blocks)

/-- `interleave(dataBlocks, ecBlocks)` (R157). -/
def interleave (dataBlocks ecBlocks : List (List Byte)) : List Byte :=
  columns dataBlocks ++ columns ecBlocks

/-- The effect of RSILV (R158). -/
def ruleRsilv (s : State) : RuleResult :=
  .done (markValid ILV { clearStages ILV s with
    icw := interleave (s.dblk.take s.nblk.toNat) (s.eblk.take s.nblk.toNat)
    nicw := BitVec.ofNat 12 (s.ndcw.toNat + s.nblk.toNat * s.nec.toNat) })

/-- RSILV (R158): precondition SPLIT. -/
def execRsilv (s : State) : Outcome :=
  .next (command .rsilv true (isValid SPLIT s) ruleRsilv s)

end Sys2Proof.Machine
end

