-- ==== Sys2Proof/Machine/Control.lean ====
section
/-! DEFINITION. The sequencer's own commands: NOP, SRESET, ENCODE (48_sequencer.md R300 to R305), and hardware reset
(70_reset_and_hazards.md R370). -/

namespace Sys2Proof.Machine

/-- NOP (R300): no effect but the report of success; Halted while HALT is set. -/
def execNop (s : State) : Outcome :=
  .next (command .nop true true .done s)

/-- Every register at its reset value, TEXT and BLK kept (R301). The read-only buffers are invalid. The host's side of the
port, the tables and the model's counters are not registers of the core and stay (Log 22). -/
def softReset (s : State) : State :=
  { State.reset with
    pending := s.pending
    hostData := s.hostData
    freeCtr := s.freeCtr
    memEpoch := s.memEpoch
    rom := s.rom
    mem := s.mem }

/-- SRESET (R301): the one command accepted while HALT is set; it completes. -/
def execSreset (s : State) : Outcome := .next (complete (softReset s))

/-- The state after the hardware reset input (R370): as after SRESET but no report of success, and TEXT and BLK hold
unspecified contents again, different ones (Log 5, Log 16). -/
def hardReset (s : State) : State :=
  { softReset s with mem := [], memEpoch := s.memEpoch + 1 }

/-- The nine stage rules in order, the first error ending the sequence (R302). -/
def stageSequence (s : State) : RuleResult :=
  (((((((((ruleAnalyze s).andThen rulePack).andThen ruleRssplit).andThen ruleRsilv).andThen ruleMatinit).andThen
    ruleMatplace).andThen ruleMaskeval).andThen ruleMasksel).andThen ruleInfostamp)

/-- The effect of ENCODE (R302). -/
def ruleEncode (s : State) : RuleResult := stageSequence (clearStages ANALYZED s)

/-- ENCODE (R302): precondition GFRDY, `REG.VERSION` in 1..40. -/
def execEncode (s : State) : Outcome :=
  .next (command .encode (versionInRange s) (isValid GFRDY s) ruleEncode s)

end Sys2Proof.Machine
end

