-- ==== Sys2Proof/Machine/RsDecoder.lean ====
section
/-! DEFINITION. Reed-Solomon syndromes and correction: RSSYN, RSCOR (43_rs_decoder.md R170 to R177). The corrector is the
reference algorithm of R176 (Log 12); `Obligations` state it against the declarative R174. -/

namespace Sys2Proof.Machine

/-- The value of a polynomial, highest power first, at `x`, by Horner's rule (R171). -/
def evalHigh (x : Byte) (p : List Byte) : Byte :=
  p.foldl (fun v c => gfmul v x ^^^ c) 0

/-- `syndromes(R, n)` (R171): the received polynomial at `α^0, ..., α^(n-1)`. -/
def syndromes (r : List Byte) (n : Nat) : List Byte :=
  (List.range n).map fun j => evalHigh (gfExp j) r

/-- The number of non-zero syndromes (R172). -/
def nonzeroCount (syn : List Byte) : Nat := syn.countP (· ≠ 0)

/-- The effect RSSYN and RSCOR share (R172, R175): SYN, SYNV, RES0 from the received block. -/
def recordSyndromes (r : List Byte) (n : Nat) (s : State) : State :=
  markValid SYNV { s with syn := syndromes r n, res0 := BitVec.ofNat 32 (nonzeroCount (syndromes r n)) }

/-- The effect of RSSYN N, n (R172). -/
def ruleRssyn (len n : BitVec 8) (s : State) : RuleResult :=
  .done (recordSyndromes (blkBytes s len.toNat) n.toNat s)

/-- RSSYN N, n (R172): precondition GFRDY, `n ≤ N`. -/
def execRssyn (len n : BitVec 8) (s : State) : Outcome :=
  .next (command (.rssyn len n) (blockInRange len n) (isValid GFRDY s) (ruleRssyn len n) s)

/-! ### The corrector (R176). Here a byte list is a polynomial with the coefficient of the lowest power first. -/

/-- `inv(a)`, for `a ≠ 0` (R135, R176). -/
def gfInv (a : Byte) : Byte := gfExp ((255 - gfLog a) % 255)

/-- `peval(p, x)` (R176): lowest power first, by Horner's rule. -/
def evalLow (x : Byte) (p : List Byte) : Byte :=
  p.foldr (fun c v => gfmul v x ^^^ c) 0

/-- The registers of the error-locator loop of R176, part 1. -/
structure Locator where
  c : List Byte
  b : List Byte
  l : Nat
  m : Nat
  d : Byte
  deriving DecidableEq, Repr

/-- The discrepancy `S[i] ^ XOR_{j=1..L, j < len(C)} gfmul(C[j], S[i-j])` (R176). -/
def discrepancy (syn : List Byte) (st : Locator) (i : Nat) : Byte :=
  (List.range st.l).foldl (fun v j => v ^^^ gfmul (st.c.getD (j + 1) 0) (syn.getD (i - (j + 1)) 0)) (syn.getD i 0)

/-- One round of the error-locator loop (R176, part 1). -/
def locatorStep (syn : List Byte) (st : Locator) (i : Nat) : Locator :=
  let d := discrepancy syn st i
  if d = 0 then { st with m := st.m + 1 }
  else
    let coef := gfmul d (gfInv st.d)
    let c := xorLists st.c (List.replicate st.m 0 ++ st.b.map (gfmul coef))
    if 2 * st.l ≤ i then { c := c, b := st.c, l := i + 1 - st.l, m := 1, d := d }
    else { st with c := c, m := st.m + 1 }

/-- A polynomial without its trailing zero coefficients. -/
def stripZeros (p : List Byte) : List Byte := (p.reverse.dropWhile (· = 0)).reverse

/-- The error locator `C(x)` and its register length `L` for `n` syndromes (R176, part 1). -/
def locator (syn : List Byte) (n : Nat) : List Byte × Nat :=
  let st := (List.range n).foldl (locatorStep syn) { c := [1], b := [1], l := 0, m := 1, d := 1 }
  (stripZeros st.c, st.l)

/-- The positions whose locator is a root of `C` (R176, part 2), for a block of length `len`. -/
def errorPositions (c : List Byte) (len : Nat) : List Nat :=
  (List.range len).filter fun p => evalLow (gfExp ((255 - (len - 1 - p)) % 255)) c = 0

/-- `Ω = S·C mod x^n` (R176, part 3). -/
def evaluator (syn c : List Byte) (n : Nat) : List Byte :=
  (List.range n).map fun k =>
    (List.range (k + 1)).foldl (fun v i => v ^^^ gfmul (syn.getD i 0) (c.getD (k - i) 0)) 0

/-- The formal derivative (R176): the coefficient of `x^(j-1)` is `C[j]` for odd `j` and 0 for even `j`. -/
def derivative (c : List Byte) : List Byte :=
  (List.range (c.length - 1)).map fun j => if j % 2 = 0 then c.getD (j + 1) 0 else 0

/-- The error value at position `p` of a block of length `len` (R176, part 3); none where the rule returns fail. -/
def errorValue (om cd : List Byte) (len p : Nat) : Option Byte :=
  let x := gfExp ((len - 1 - p) % 255)
  let xi := gfInv x
  let den := evalLow xi cd
  if den = 0 then none
  else
    let mag := gfmul (gfmul x (evalLow xi om)) (gfInv den)
    if mag = 0 then none else some mag

/-- The block with every error value added at its position (R176, part 3). -/
def applyErrors (om cd : List Byte) (len : Nat) : List Nat → List Byte → Option (List Byte)
  | [], r => some r
  | p :: ps, r =>
    match errorValue om cd len p with
    | none => none
    | some mag => applyErrors om cd len ps (r.set p (r.getD p 0 ^^^ mag))

/-- `rscorrect(R, n)` (R174) by the reference algorithm (R176): the corrected block and the number of errors, or fail. -/
def rscorrect (r : List Byte) (n : Nat) : Option (List Byte × Nat) :=
  let syn := syndromes r n
  if syn.all (· = 0) then some (r, 0)
  else
    let (c, l) := locator syn n
    if c.length ≠ l + 1 ∨ n / 2 < l then none
    else
      let pos := errorPositions c r.length
      if pos.length ≠ l then none
      else
        match applyErrors (evaluator syn c n) (derivative c) r.length pos r with
        | none => none
        | some r' => if (syndromes r' n).all (· = 0) then some (r', l) else none

/-- The effect of RSCOR N, n (R175). -/
def ruleRscor (len n : BitVec 8) (s : State) : RuleResult :=
  let r := blkBytes s len.toNat
  let recorded := recordSyndromes r n.toNat s
  match rscorrect r n.toNat with
  | some (c, e) => .done { writeBlk 0 c recorded with res1 := BitVec.ofNat 32 e }
  | none => .raised .rsUncorrectable { recorded with res1 := 0xFFFFFFFF }

/-- RSCOR N, n (R175): precondition GFRDY, `n ≤ N`. -/
def execRscor (len n : BitVec 8) (s : State) : Outcome :=
  .next (command (.rscor len n) (blockInRange len n) (isValid GFRDY s) (ruleRscor len n) s)

end Sys2Proof.Machine
end

