-- ==== Sys2Proof/Machine/Dispatch.lean ====
section
/-! DEFINITION. The meaning of every command: one arm per constructor of Instr, in the order of the opcode table. -/

namespace Sys2Proof.Machine

def exec (i : Instr) (s : State) : Host.Outcome State Fault Refusal :=
  match i with
  | .nop => Sys2Proof.Machine.execNop s
  | .sreset => Sys2Proof.Machine.execSreset s
  | .gfmul a b => Sys2Proof.Machine.execGfmul a b s
  | .gfgen n => Sys2Proof.Machine.execGfgen n s
  | .rsenc k n => Sys2Proof.Machine.execRsenc k n s
  | .rssyn len n => Sys2Proof.Machine.execRssyn len n s
  | .rscor len n => Sys2Proof.Machine.execRscor len n s
  | .analyze => Sys2Proof.Machine.execAnalyze s
  | .pack => Sys2Proof.Machine.execPack s
  | .rssplit => Sys2Proof.Machine.execRssplit s
  | .rsilv => Sys2Proof.Machine.execRsilv s
  | .matinit => Sys2Proof.Machine.execMatinit s
  | .matplace => Sys2Proof.Machine.execMatplace s
  | .maskeval => Sys2Proof.Machine.execMaskeval s
  | .masksel => Sys2Proof.Machine.execMasksel s
  | .infostamp => Sys2Proof.Machine.execInfostamp s
  | .encode => Sys2Proof.Machine.execEncode s
  | .fmtenc level mask => Sys2Proof.Machine.execFmtenc level mask s
  | .fmtdec raw => Sys2Proof.Machine.execFmtdec raw s
  | .verenc version => Sys2Proof.Machine.execVerenc version s
  | .verdec raw => Sys2Proof.Machine.execVerdec raw s

end Sys2Proof.Machine
end

