-- ==== Sys2Proof/Machine/Port.lean ====
section
/-! DEFINITION. The host port: element reads and writes in the sixteen address spaces (20_memory.md R60 to R63;
10_state.md R22 to R49; 49_config_tables.md R321). -/

namespace Sys2Proof.Machine

/-! ### Addresses (R61) -/

/-- `addr[23:20]`, the space number. -/
def addrSpace (a : Addr) : Nat := (a.extractLsb' 20 4).toNat

/-- `addr[19:0]`, the element index. -/
def addrIndex (a : Addr) : Nat := (a.extractLsb' 0 20).toNat

/-- The port address of `REG.CMD`: space 0, number 0 (R22). -/
def cmdAddr : Addr := 0

/-! ### What a read returns -/

/-- The element an address names: a value the rules give, or any value of an element of some width (R25 (e), U1). -/
inductive Element where
  | known (w : Word)
  | any (width : Nat)
  deriving DecidableEq, Repr

/-- A register of group `k` of `VALID`: unspecified once its group was invalidated (R25 (e), Log 6). -/
def registerOf {n : Nat} (s : State) (k : Nat) (v : BitVec n) : Element :=
  if s.held.getLsbD k then .known (v.setWidth 32) else .any n

/-- Register `k` of a row of PEN (R35); numbers 6 and 7 are unassigned. -/
def penaltyRegister (p : Penalty) : Nat → Option Word
  | 0 => some p.n1
  | 1 => some p.n2
  | 2 => some p.n3
  | 3 => some p.n4
  | 4 => some p.total
  | 5 => some p.dark
  | _ => none

/-- `REG.PEN`, numbers 0x40 to 0x7F (R35); unassigned numbers read 0 (R36). -/
def readPenalty (s : State) (i : Nat) : Element :=
  match s.pen[(i - 0x40) / 8]? with
  | none => .known 0
  | some row =>
    match penaltyRegister row ((i - 0x40) % 8) with
    | none => .known 0
    | some w => registerOf s EVALD w

/-- Space 0, the registers by number (R22 to R36). -/
def readRegister (s : State) (i : Nat) : Element :=
  match i with
  | 0x01 => .known ((statusWord s).setWidth 32)
  | 0x02 => .known (s.errcode.setWidth 32)
  | 0x03 => .known s.errinfo
  | 0x04 => .known (s.valid.setWidth 32)
  | 0x05 => .known (s.version.setWidth 32)
  | 0x06 => .known (s.level.setWidth 32)
  | 0x07 => .known (s.len.setWidth 32)
  | 0x08 => registerOf s ANALYZED s.mode
  | 0x09 => registerOf s ANALYZED s.minver
  | 0x0A => registerOf s ANALYZED (BitVec.ofBool s.anvalid)
  | 0x0B => registerOf s PACKED s.usedbits
  | 0x0C => registerOf s PACKED s.capbits
  | 0x0D => registerOf s PACKED s.ndcw
  | 0x0E => registerOf s SPLIT s.nblk
  | 0x0F => registerOf s SPLIT s.nec
  | 0x10 => registerOf s ILV s.nicw
  | 0x11 => registerOf s MINIT s.size
  | 0x12 => registerOf s MINIT s.ndata
  | 0x13 => registerOf s SELD s.masksel
  | 0x14 => registerOf s STAMPED s.formatinfo
  | 0x15 => registerOf s STAMPED (presentWord s.versioninfo)
  | 0x18 => .known s.res0
  | 0x19 => .known s.res1
  | 0x1A => .known s.res2
  | _ => if 0x40 ≤ i then readPenalty s i else .known 0

/-! ### Sizes of the spaces (R41 to R45, R322) -/

/-- The greatest value over the versions 1 to 40 and the four level codes. -/
def maxOverSymbols (f : Nat → BitVec 2 → Nat) : Nat :=
  ((List.range' 1 40).map fun v => max (max (f v 0) (f v 1)) (max (f v 2) (f v 3))).foldl max 0

/-- The number of elements of `BITS`: the greatest capacity of the tables, 23648 for the default ones (R41, R322, Log 13). -/
def bitsSize (rom : Rom) : Nat := maxOverSymbols (capOf rom)

/-- The number of elements of `DCW`: the most data codewords of the tables, 2956 for the default ones (R41, R322, Log 13). -/
def dcwSize (rom : Rom) : Nat := maxOverSymbols fun v lc => capOf rom v lc / 8

/-- The number of elements of `ICW`: the most codewords of the tables, 3706 for the default ones (R43, R322, Log 13). -/
def icwSize (rom : Rom) : Nat := maxOverSymbols (totalCodewords rom)

/-- The size of the block spaces: 81 blocks, which R322 (a) allows every table, of 255 elements at a stride of 256 (R42). -/
def blockSpaceSize : Nat := 256 * 80 + 255

/-- The size of a matrix space, up to the cell `(176, 176)` (R44, R45). -/
def matrixSpaceSize : Nat := 256 * 176 + 177

/-- An element of a read-only buffer of group `k` whose space has `size` elements: 0 beyond the space (R62), any value
while the buffer is invalid or beyond its current length (U1). -/
def bufferElement (s : State) (k size width i : Nat) (v : Option Word) : Element :=
  if size ≤ i then .known 0
  else if isValid k s then
    match v with
    | some w => .known w
    | none => .any width
  else .any width

/-- The code of a module type (R44). -/
def typeCode : ModuleType → Word
  | .empty => 0
  | .finder => 1
  | .separator => 2
  | .timing => 3
  | .alignment => 4
  | .format => 5
  | .version => 6
  | .data => 7

/-- The code of a module value (R45). -/
def moduleCode : Module → Word
  | .light => 0
  | .dark => 1
  | .empty => 2

/-- A matrix value buffer of group `k` at index `i` (R45): a valid buffer reads 0 at indices that are no cell of the matrix. -/
def readMatrix (s : State) (k : Nat) (g : Grid Module) (size i : Nat) : Element :=
  bufferElement s k size 2 i
    (some (match (g.getD (i % 65536 / 256) [])[i % 256]? with
      | some v => moduleCode v
      | none => 0))

/-- The block element `b, i` at index `256·b + i` (R42). -/
def blockElement (blocks : List (List Byte)) (i : Nat) : Option Word :=
  ((blocks.getD (i / 256) [])[i % 256]?).map (·.setWidth 32)

/-- Space 15, the ROM tables (R321). -/
def readRom (rom : Rom) (i : Nat) : Word :=
  let x := i % 65536
  match i / 65536 with
  | 0 =>
    if x < 256 then (gfExp x).setWidth 32
    else if x < 512 then BitVec.ofNat 32 (gfLog (BitVec.ofNat 8 (x - 256)))
    else 0
  | 1 => if x < 160 then BitVec.ofNat 32 (capOf rom (x / 4 + 1) (BitVec.ofNat 2 (x % 4))) else 0
  | 2 =>
    if x < 1280 then
      let plan := planOf rom (x / 32 + 1) (BitVec.ofNat 2 (x / 8 % 4))
      BitVec.ofNat 32 (match x % 8 with
        | 0 => plan.ec
        | 1 => plan.groups.length
        | 2 => (plan.groups.getD 0 (0, 0)).1
        | 3 => (plan.groups.getD 0 (0, 0)).2
        | 4 => (plan.groups.getD 1 (0, 0)).1
        | 5 => (plan.groups.getD 1 (0, 0)).2
        | _ => 0)
    else 0
  | 3 =>
    if x < 320 then
      let coords := alignOf rom (x / 8 + 1)
      BitVec.ofNat 32 (if x % 8 = 0 then coords.length else coords.getD (x % 8 - 1) 0)
    else 0
  | 4 => if x < 64 then (verrefOf rom x).setWidth 32 else 0
  | _ => 0

/-- What a HostRead of an address returns (R60 to R63). -/
def elementAt (s : State) (a : Addr) : Element :=
  let i := addrIndex a
  match addrSpace a with
  | 0 => readRegister s i
  | 1 => .known (if i < 8192 then (readByte s (textBase + i)).setWidth 32 else 0)
  | 2 => bufferElement s PACKED (bitsSize s.rom) 1 i (s.bits[i]?.map fun b => (BitVec.ofBool b).setWidth 32)
  | 3 => bufferElement s PACKED (dcwSize s.rom) 8 i (s.dcw[i]?.map (·.setWidth 32))
  | 4 => bufferElement s SPLIT blockSpaceSize 8 i (blockElement s.dblk i)
  | 5 => bufferElement s SPLIT blockSpaceSize 8 i (blockElement s.eblk i)
  | 6 => bufferElement s ILV (icwSize s.rom) 8 i (s.icw[i]?.map (·.setWidth 32))
  | 7 => bufferElement s MINIT matrixSpaceSize 3 i ((s.mtype.getD (i / 256) [])[i % 256]?.map typeCode)
  | 8 => readMatrix s MINIT s.mfunc matrixSpaceSize i
  | 9 => readMatrix s PLACED s.mpre matrixSpaceSize i
  | 10 => readMatrix s EVALD (s.mcand[i / 65536]?.getD []) (65536 * 7 + matrixSpaceSize) i
  | 11 => readMatrix s STAMPED s.mfinal matrixSpaceSize i
  | 12 => .known (if i < 256 then (readByte s (blkBase + i)).setWidth 32 else 0)
  | 13 => bufferElement s GENV 256 8 i (s.gen[i]?.map (·.setWidth 32))
  | 14 => bufferElement s SYNV 255 8 i (s.syn[i]?.map (·.setWidth 32))
  | _ => .known (readRom s.rom i)

/-- HostRead (R60, R63): the word returned, and no other effect on the core. A read of an unspecified element takes the next
free value, as wide as the element (U1, Log 4). -/
def hostRead (a : Addr) (s : State) : State :=
  match elementAt s a with
  | .known w => { s with hostData := w }
  | .any width =>
    { s with hostData := ((Config.freeWord s.freeCtr).setWidth width).setWidth 32, freeCtr := s.freeCtr + 1 }

/-! ### What a write does -/

/-- A host write to an input of the pipeline ends the current run (R25 (c)). -/
def endRun (s : State) : State := clearStages ANALYZED s

/-- A write to space 0 other than to `REG.CMD` (R27, R36, R63). -/
def writeRegister (i : Nat) (w : Word) (s : State) : State :=
  match i with
  | 0x05 => endRun { s with version := w.setWidth 6 }
  | 0x06 => endRun { s with level := w.setWidth 2 }
  | 0x07 => endRun { s with len := w.setWidth 13 }
  | _ => s

/-- HostWrite to an address other than `REG.CMD` (R60 to R63): the low bits of the word are kept; read-only and unassigned
locations ignore the write. -/
def hostWrite (a : Addr) (w : Word) (s : State) : State :=
  let i := addrIndex a
  match addrSpace a with
  | 0 => writeRegister i w s
  | 1 => if i < 8192 then endRun (writeByte (textBase + i) (w.setWidth 8) s) else s
  | 12 => if i < 256 then writeByte (blkBase + i) (w.setWidth 8) s else s
  | _ => s

end Sys2Proof.Machine
end

