-- ==== Sys2Proof/Machine/Step.lean ====
section
/-! DEFINITION. One step of the core: one host event, oldest first (20_memory.md R70, R71). -/

namespace Sys2Proof.Machine

/-- A command word written to `REG.CMD` (R22, R80): the command it decodes to, or the rejection of a word that is none. -/
def commandWord (w : Word) (s : State) : Outcome :=
  match decode w with
  | .ok i => exec i s
  | .error _ => .next (rejectWord w s)

/-- One host event at the port (R60, R370). -/
def hostEvent (e : HostEvent) (s : State) : Outcome :=
  match e with
  | .read a => .next (hostRead a s)
  | .write a w => if a = cmdAddr then commandWord w s else .next (hostWrite a w s)
  | .reset => .next (hardReset s)

/-- One step: the oldest pending host event takes effect; with none pending the core is idle with all state held (R358). -/
def step (s : State) : Host.Outcome State Fault Refusal :=
  match s.pending with
  | [] => .next s
  | e :: rest => hostEvent e { s with pending := rest }

/-- The state in which the very next host event writes the given command word to `REG.CMD` (R22): the place from which
`step` takes its next command (Log 1). -/
def State.withFetchWord (s : State) (nbits w : Nat) : State :=
  { s with pending := .write cmdAddr (BitVec.ofNat 32 (w % 2 ^ nbits)) :: s.pending }

end Sys2Proof.Machine
end

