-- ==== Sys2Proof/Safety.lean ====
section
/-! DEFINITION. What a safe run of the core is: the invariants every step keeps, the premises on the reference tables
(49_config_tables.md R322, R323), and the vocabulary of the statements. -/

namespace Sys2Proof.Machine

/-! ### Reports -/

/-- The state with the report of success (R80). -/
def State.withDone (s : State) : State :=
  { s with done := true, err := false, errcode := 0, errinfo := 0 }

/-- The state with the report of an error of code `c` raised by the word `w` (R341), HALT as it is. -/
def State.withError (s : State) (c : BitVec 4) (w : Word) : State :=
  { s with done := false, err := true, errcode := c, errinfo := w }

/-- `t` with the report and the valid bits of `s`: what is left to compare once those are set aside. -/
def State.withReportOf (t s : State) : State :=
  { t with done := s.done, err := s.err, errcode := s.errcode, errinfo := s.errinfo, valid := s.valid, held := s.held }

/-! ### The stage commands (R18) -/

/-- The stage command whose outputs bit `k` of VALID stands for, `k` in 1..9 (R24). -/
def stageCommand : Nat → Instr
  | 1 => .analyze
  | 2 => .pack
  | 3 => .rssplit
  | 4 => .rsilv
  | 5 => .matinit
  | 6 => .matplace
  | 7 => .maskeval
  | 8 => .masksel
  | 9 => .infostamp
  | _ => .nop

/-- The rule of that stage command. -/
def stageRule : Nat → State → RuleResult
  | 1 => ruleAnalyze
  | 2 => rulePack
  | 3 => ruleRssplit
  | 4 => ruleRsilv
  | 5 => ruleMatinit
  | 6 => ruleMatplace
  | 7 => ruleMaskeval
  | 8 => ruleMasksel
  | 9 => ruleInfostamp
  | _ => .done

/-- The stand-alone commands (R18). -/
def standAlone : Instr → Bool
  | .gfmul _ _ => true
  | .gfgen _ => true
  | .rsenc _ _ => true
  | .rssyn _ _ => true
  | .rscor _ _ => true
  | .fmtenc _ _ => true
  | .fmtdec _ => true
  | .verenc _ => true
  | .verdec _ => true
  | .nop => false
  | .sreset => false
  | .analyze => false
  | .pack => false
  | .rssplit => false
  | .rsilv => false
  | .matinit => false
  | .matplace => false
  | .maskeval => false
  | .masksel => false
  | .infostamp => false
  | .encode => false

/-! ### What every command has to meet before its rule runs (R87, R88) -/

/-- The operands of the command are in the range of R87. -/
def OperandsInRange (i : Instr) (s : State) : Prop :=
  match i with
  | .nop => True
  | .sreset => True
  | .gfmul _ _ => True
  | .gfgen n => n.toNat ≤ 254
  | .rsenc k n => k.toNat + n.toNat ≤ 255
  | .rssyn len n => n.toNat ≤ len.toNat
  | .rscor len n => n.toNat ≤ len.toNat
  | .analyze => 1 ≤ s.version.toNat ∧ s.version.toNat ≤ 40
  | .pack => True
  | .rssplit => True
  | .rsilv => True
  | .matinit => True
  | .matplace => True
  | .maskeval => True
  | .masksel => True
  | .infostamp => True
  | .encode => 1 ≤ s.version.toNat ∧ s.version.toNat ≤ 40
  | .fmtenc _ _ => True
  | .fmtdec _ => True
  | .verenc _ => True
  | .verdec _ => True

/-- The number of the bit of VALID the command requires, if any (R88). -/
def requiredBit : Instr → Option Nat
  | .gfmul _ _ => some 0
  | .gfgen _ => some 0
  | .rsenc _ _ => some 0
  | .rssyn _ _ => some 0
  | .rscor _ _ => some 0
  | .analyze => some 0
  | .pack => some 1
  | .rssplit => some 2
  | .rsilv => some 3
  | .matinit => some 4
  | .matplace => some 5
  | .maskeval => some 6
  | .masksel => some 7
  | .infostamp => some 8
  | .encode => some 0
  | .nop => none
  | .sreset => none
  | .fmtenc _ _ => none
  | .fmtdec _ => none
  | .verenc _ => none
  | .verdec _ => none

/-- The required bit of VALID, if any, is 1. -/
def Ready (i : Instr) (s : State) : Prop := ∀ k, requiredBit i = some k → s.valid.getLsbD k = true

/-! ### Invariants -/

/-- What every state between two host events satisfies, whatever the tables hold. -/
structure ControlInv (s : State) : Prop where
  /-- Memory is in canonical form. -/
  memWf : s.mem.wf
  /-- Only elements of TEXT and BLK are listed (R61). -/
  memRange : ∀ c ∈ s.mem, (textBase ≤ c.1 ∧ c.1 < textBase + 8192) ∨ (blkBase ≤ c.1 ∧ c.1 < blkBase + 256)
  /-- GFRDY is never cleared (R133). -/
  gfReady : s.valid.getLsbD 0 = true
  /-- A valid bit of a stage implies the bit of the stage before it (R88). -/
  chain : ∀ k, 1 ≤ k → k ≤ 8 → s.valid.getLsbD (k + 1) = true → s.valid.getLsbD k = true
  /-- The registers of a valid group hold a value a rule gave (Log 6). -/
  heldValid : s.valid &&& ~~~s.held = 0
  /-- At most one of DONE and ERR (R23). -/
  oneReport : ¬ (s.done = true ∧ s.err = true)
  /-- ERR goes with an error code of R340, and ERRINFO is 0 without one (R26). -/
  errorReport : (s.err = true ↔ s.errcode ≠ 0) ∧ s.errcode.toNat ≤ 8 ∧ (s.err = false → s.errinfo = 0)
  /-- While HALT is set the last command raised an error (R346). -/
  haltReport : s.halt = true → s.err = true
  /-- The kanji indicator is never stored (R28). -/
  modeLegal : s.mode = 0 ∨ s.mode = 1 ∨ s.mode = 2 ∨ s.mode = 4
  /-- `minimumVersion` is at most 40 (R28). -/
  minverLegal : s.minver.toNat ≤ 40
  /-- GEN holds a generator polynomial that fits its 256 elements (R47). -/
  genLegal : s.valid.getLsbD 10 = true → ∃ n, n ≤ 255 ∧ s.gen = genpoly n
  /-- SYN fits its 255 elements (R47). -/
  synLegal : s.valid.getLsbD 11 = true → s.syn.length ≤ 255

/-- A valid bit says that the group's outputs are "that stage's result for the current inputs" (R18, R24): the stage's rule,
run on the state, completes and changes no register and no buffer (only bits of VALID, and Log 6's bits beside them). -/
def Coherent (s : State) : Prop :=
  (s.valid.getLsbD 1 = true → 1 ≤ s.version.toNat ∧ s.version.toNat ≤ 40) ∧
    ∀ k, 1 ≤ k → k ≤ 9 → s.valid.getLsbD k = true →
      ∃ t, stageRule k s = .done t ∧ { t with valid := s.valid, held := s.held } = s

/-! ### Premises on the tables (R322, R323), for one version and level, then for all -/

/-- The number of data cells of a version's matrix (R202). -/
def dataCells (rom : Rom) (v : Nat) : Nat := countData (typeGrid v (alignOf rom v))

/-- R322 (a) and (b). -/
def PlanPremise (rom : Rom) (v : Nat) (lc : BitVec 2) : Prop :=
  let p := planOf rom v lc
  (p.groups.length = 1 ∨ p.groups.length = 2)
    ∧ (∀ g ∈ p.groups, 1 ≤ g.1 ∧ 1 ≤ g.2 ∧ g.2 + p.ec ≤ 255)
    ∧ 1 ≤ p.ec ∧ planBlocks p ≤ 81
    ∧ planData p.groups = capOf rom v lc / 8

/-- R322 (c). -/
def FitPremise (rom : Rom) (v : Nat) (lc : BitVec 2) : Prop :=
  8 * totalCodewords rom v lc ≤ dataCells rom v ∧ dataCells rom v - 8 * totalCodewords rom v lc ≤ 7

/-- R322 (d): at most seven coordinates, strictly ascending, none for version 1; every pattern lies inside the grid, on cells
that without alignment patterns are timing or data cells, so on no finder, separator, format, version or dark-module cell;
no two patterns touch. -/
def AlignPremise (v : Nat) (coords : List Nat) : Prop :=
  let size := matrixSize v
  let centres := alignmentCentres size coords
  coords.length ≤ 7 ∧ coords.Pairwise (· < ·) ∧ (v = 1 → coords = [])
    ∧ (∀ p ∈ centres, 2 ≤ p.1 ∧ p.1 + 2 < size ∧ 2 ≤ p.2 ∧ p.2 + 2 < size
        ∧ ∀ i < 5, ∀ j < 5,
          (functionCell v [] (p.1 - 2 + i) (p.2 - 2 + j)).2 = .timing ∨ (functionCell v [] (p.1 - 2 + i) (p.2 - 2 + j)).2 = .data)
    ∧ centres.Pairwise fun p q => 5 ≤ absDiff p.1 q.1 ∨ 5 ≤ absDiff p.2 q.2

/-- R323 (a). -/
def CapPremise (rom : Rom) (v : Nat) (lc : BitVec 2) : Prop := 0 < capOf rom v lc ∧ capOf rom v lc % 8 = 0

/-- R322 (e). -/
def VerrefPremise (rom : Rom) : Prop :=
  ∀ v : BitVec 6, 7 ≤ v.toNat → v.toNat ≤ 40 → verrefOf rom v.toNat = vercode v

/-- A text of `len` characters or bytes in a mode fits a version at a level (R106, R110). -/
def Fits (rom : Rom) (v : Nat) (lc : BitVec 2) (m : Mode) (len : Nat) : Prop := needBits m len v ≤ capOf rom v lc

/-- R323 (b): the character count of every text that fits fits its field. The modes are those the core packs; kanji is never
one (R104) and R109 gives it no length. -/
def CountPremise (rom : Rom) (v : Nat) (lc : BitVec 2) : Prop :=
  ∀ m, m ≠ .kanji → ∀ len, Fits rom v lc m len → len < 2 ^ ccbits m v

/-- R323 (c): the length of every text that fits fits `REG.LEN`. -/
def LengthPremise (rom : Rom) (v : Nat) (lc : BitVec 2) : Prop :=
  ∀ m, m ≠ .kanji → ∀ len, Fits rom v lc m len → len ≤ 8191

/-- R323 (d): a text that fits a version fits every later one. No rule relies on it. -/
def MonotoneFit (rom : Rom) : Prop :=
  ∀ v u, 1 ≤ v → v ≤ u → u ≤ 40 → ∀ lc m, m ≠ .kanji → ∀ len, Fits rom v lc m len → Fits rom u lc m len

/-- Well-formed tables: R322 (a) to (e) and R323 (a) to (c), for every version and level. -/
structure TablesWellFormed (rom : Rom) : Prop where
  plan : ∀ v, 1 ≤ v → v ≤ 40 → ∀ lc, PlanPremise rom v lc
  fit : ∀ v, 1 ≤ v → v ≤ 40 → ∀ lc, FitPremise rom v lc
  align : ∀ v, 1 ≤ v → v ≤ 40 → AlignPremise v (alignOf rom v)
  verref : VerrefPremise rom
  cap : ∀ v, 1 ≤ v → v ≤ 40 → ∀ lc, CapPremise rom v lc
  count : ∀ v, 1 ≤ v → v ≤ 40 → ∀ lc, CountPremise rom v lc
  length : ∀ v, 1 ≤ v → v ≤ 40 → ∀ lc, LengthPremise rom v lc

/-- The part of `TablesWellFormed` that a run at the state's version and level rests on: R322 (a) to (c) and R323 (a) there.
A statement under this premise needs neither R322 (d), (e) nor R323 (b), (c), and holds with them. -/
def TablesFit (s : State) : Prop :=
  PlanPremise s.rom s.version.toNat s.level ∧ FitPremise s.rom s.version.toNat s.level
    ∧ CapPremise s.rom s.version.toNat s.level

/-! ### Runs -/

/-- The state after a command; every command ends in a next state. -/
def after (i : Instr) (s : State) : State :=
  match exec i s with
  | .next t => t
  | .fault _ => s
  | .refused _ => s

/-- The commands issued one after another, stopping at the first that raises (R304). -/
def issue : List Instr → State → State
  | [], s => s
  | i :: is, s => if (after i s).err then after i s else issue is (after i s)

/-- The nine stage commands in their order (R4, R302). -/
def pipeline : List Instr :=
  [.analyze, .pack, .rssplit, .rsilv, .matinit, .matplace, .maskeval, .masksel, .infostamp]

/-- A run of `n` steps never sets HALT: no StructuralInconsistency stops the pipeline (R344). -/
def SafeRun : Nat → State → Prop
  | 0, s => s.halt = false
  | n + 1, s => s.halt = false ∧ ∀ t, step s = .next t → SafeRun n t

/-! ### The host port (R61 to R63) -/

/-- The addresses a host write changes something at (R63). -/
def hostWritable (a : Addr) : Bool :=
  match addrSpace a with
  | 0 => addrIndex a == 0 || addrIndex a == 5 || addrIndex a == 6 || addrIndex a == 7
  | 1 => decide (addrIndex a < 8192)
  | 12 => decide (addrIndex a < 256)
  | _ => false

/-- The register numbers that R22 to R35 assign. -/
def assignedRegister (i : Nat) : Bool :=
  decide (i ≤ 0x15) || decide (0x18 ≤ i ∧ i ≤ 0x1A) || (decide (0x40 ≤ i ∧ i < 0x80) && decide (i % 8 < 6))

/-- The index lies beyond the last element of its space, or in no range of R321, or names no register (R36, R62). The
sizes of spaces 2, 3 and 6 follow from the tables (R41, R43, R322, Log 13). -/
def beyondSpace (rom : Rom) (a : Addr) : Bool :=
  let i := addrIndex a
  match addrSpace a with
  | 0 => !assignedRegister i
  | 1 => decide (8192 ≤ i)
  | 2 => decide (bitsSize rom ≤ i)
  | 3 => decide (dcwSize rom ≤ i)
  | 4 => decide (256 * 80 + 255 ≤ i)
  | 5 => decide (256 * 80 + 255 ≤ i)
  | 6 => decide (icwSize rom ≤ i)
  | 7 => decide (256 * 176 + 176 < i)
  | 8 => decide (256 * 176 + 176 < i)
  | 9 => decide (256 * 176 + 176 < i)
  | 10 => decide (65536 * 7 + 256 * 176 + 176 < i)
  | 11 => decide (256 * 176 + 176 < i)
  | 12 => decide (256 ≤ i)
  | 13 => decide (256 ≤ i)
  | 14 => decide (255 ≤ i)
  | _ =>
    match i / 65536 with
    | 0 => decide (512 ≤ i % 65536)
    | 1 => decide (160 ≤ i % 65536)
    | 2 => decide (1280 ≤ i % 65536)
    | 3 => decide (320 ≤ i % 65536)
    | 4 => decide (64 ≤ i % 65536)
    | _ => true

/-! ### The clear forms that the fast ones are held to -/

/-- The carry-less product of two bytes: bit `i` of `b` adds `a << i` (R135). -/
def carrylessProduct (a b : Byte) : BitVec 15 :=
  (List.range 8).foldl (fun v i => if b.getLsbD i then v ^^^ (a.setWidth 15 <<< i) else v) 0

/-- The remainder modulo `0x11D` (R130, R135). -/
def reduceField (v : BitVec 15) : Byte :=
  ([14, 13, 12, 11, 10, 9, 8].foldl
    (fun v i => if v.getLsbD i then v ^^^ ((0x11D : BitVec 15) <<< (i - 8)) else v) v).setWidth 8

/-- Cells `i` to `i+n-1` of the line are a maximal run of equal non-null cells (R236). -/
def isMaximalRun (line : List Module) (i n : Nat) : Bool :=
  let v := line.getD i .empty
  decide (1 ≤ n ∧ i + n ≤ line.length) && v != .empty
    && (List.range n).all (fun j => line.getD (i + j) .empty == v)
    && (decide (i = 0) || line.getD (i - 1) .empty != v)
    && (decide (i + n = line.length) || line.getD (i + n) .empty != v)

/-- `Σ (L − 2)` over every maximal run of length `L ≥ 5` of a line (R236). -/
def runPenalty (line : List Module) : Nat :=
  ((List.range line.length).map fun i =>
    ((List.range (line.length + 1)).map fun n => if 5 ≤ n ∧ isMaximalRun line i n then n - 2 else 0).sum).sum

/-- The number of windows of a line that equal the pattern of R238. -/
def windowCount (line : List Module) : Nat :=
  (List.range line.length).countP fun s => (line.drop s).take 7 == finderSequence

/-- A `size × size` grid. -/
def SquareGrid {α : Type} (size : Nat) (g : Grid α) : Prop := g.length = size ∧ ∀ row ∈ g, row.length = size

/-! ### Words of bits and bytes -/

/-- The number of 1 bits. -/
def weight {n : Nat} (w : BitVec n) : Nat := (List.range n).countP fun i => w.getLsbD i

/-- `d(a, b)` (R173): the number of positions in which two byte sequences of equal length differ. -/
def distance (a b : List Byte) : Nat := (List.zip a b).countP fun p => p.1 != p.2

end Sys2Proof.Machine
end

