-- ==== Sys2Proof/Certificates/Slice0/Obligations.lean ====
section
/-! DEFINITION. The statements for the provers. Each docstring says what its definition states; OBLIGATIONS.json lists them. -/

open Sys2Proof Sys2Proof.Machine

/-! ### Encoding (30_encoding.md) -/

/-- Decoding and encoding agree: a 32-bit word decodes to the command i exactly when it is the encoding of i, for every
command with every operand at every value its field admits. -/
def Obligations.DecodeIffEncode : Prop :=
  ∀ (w : Word) (i : Instr), decode w = .ok i ↔ w = encode i

/-- The opcode map: for each of the 21 rows, a word w selects the row, (w AND mask) = match, exactly when it decodes to the
row's command with the operands of the row's fields; a word that selects no row decodes to no command. -/
def Obligations.OpcodeMapRows : Prop :=
  ∀ w : Word,
    (w &&& 0xFFFFFFFF = 0x00000000 ↔ decode w = .ok .nop) ∧
    (w &&& 0xFFFFFFFF = 0x01000000 ↔ decode w = .ok .sreset) ∧
    (w &&& 0xFF0000FF = 0x10000000 ↔ decode w = .ok (.gfmul (w.extractLsb' 16 8) (w.extractLsb' 8 8))) ∧
    (w &&& 0xFF00FFFF = 0x11000000 ↔ decode w = .ok (.gfgen (w.extractLsb' 16 8))) ∧
    (w &&& 0xFF0000FF = 0x20000000 ↔ decode w = .ok (.rsenc (w.extractLsb' 16 8) (w.extractLsb' 8 8))) ∧
    (w &&& 0xFF0000FF = 0x21000000 ↔ decode w = .ok (.rssyn (w.extractLsb' 16 8) (w.extractLsb' 8 8))) ∧
    (w &&& 0xFF0000FF = 0x22000000 ↔ decode w = .ok (.rscor (w.extractLsb' 16 8) (w.extractLsb' 8 8))) ∧
    (w &&& 0xFFFFFFFF = 0x30000000 ↔ decode w = .ok .analyze) ∧
    (w &&& 0xFFFFFFFF = 0x31000000 ↔ decode w = .ok .pack) ∧
    (w &&& 0xFFFFFFFF = 0x32000000 ↔ decode w = .ok .rssplit) ∧
    (w &&& 0xFFFFFFFF = 0x33000000 ↔ decode w = .ok .rsilv) ∧
    (w &&& 0xFFFFFFFF = 0x34000000 ↔ decode w = .ok .matinit) ∧
    (w &&& 0xFFFFFFFF = 0x35000000 ↔ decode w = .ok .matplace) ∧
    (w &&& 0xFFFFFFFF = 0x36000000 ↔ decode w = .ok .maskeval) ∧
    (w &&& 0xFFFFFFFF = 0x37000000 ↔ decode w = .ok .masksel) ∧
    (w &&& 0xFFFFFFFF = 0x38000000 ↔ decode w = .ok .infostamp) ∧
    (w &&& 0xFFFFFFFF = 0x3F000000 ↔ decode w = .ok .encode) ∧
    (w &&& 0xFFFFFFE0 = 0x40000000 ↔ decode w = .ok (.fmtenc (w.extractLsb' 3 2) (w.extractLsb' 0 3))) ∧
    (w &&& 0xFFFF8000 = 0x41000000 ↔ decode w = .ok (.fmtdec (w.extractLsb' 0 15))) ∧
    (w &&& 0xFFFFFFC0 = 0x42000000 ↔ decode w = .ok (.verenc (w.extractLsb' 0 6))) ∧
    (w &&& 0xFFFC0000 = 0x43000000 ↔ decode w = .ok (.verdec (w.extractLsb' 0 18))) ∧
    ((w &&& 0xFFFFFFFF ∉ [0x00000000, 0x01000000, 0x30000000, 0x31000000, 0x32000000, 0x33000000, 0x34000000, 0x35000000,
        0x36000000, 0x37000000, 0x38000000, 0x3F000000#32] ∧
      w &&& 0xFF0000FF ∉ [0x10000000, 0x20000000, 0x21000000, 0x22000000#32] ∧
      w &&& 0xFF00FFFF ≠ 0x11000000 ∧ w &&& 0xFFFFFFE0 ≠ 0x40000000 ∧ w &&& 0xFFFF8000 ≠ 0x41000000 ∧
      w &&& 0xFFFFFFC0 ≠ 0x42000000 ∧ w &&& 0xFFFC0000 ≠ 0x43000000) ↔ ∃ e, decode w = .error e)

/-- Words of the spec's own examples, one or more of every format and family, decode to the commands the spec says; an
unassigned opcode and a non-zero must-be-zero field decode to none. -/
def Obligations.SpecWordsDecode : Prop :=
  decode 0x00000000 = .ok .nop ∧ decode 0x01000000 = .ok .sreset ∧ decode 0x10030700 = .ok (.gfmul 3 7) ∧
    decode 0x11020000 = .ok (.gfgen 2) ∧ decode 0x20100A00 = .ok (.rsenc 16 10) ∧
    decode 0x211A0A00 = .ok (.rssyn 26 10) ∧ decode 0x221A0A00 = .ok (.rscor 26 10) ∧
    decode 0x30000000 = .ok .analyze ∧ decode 0x3F000000 = .ok .encode ∧ decode 0x40000016 = .ok (.fmtenc 0b10 6) ∧
    decode 0x410077C4 = .ok (.fmtdec 0x77C4) ∧ decode 0x42000007 = .ok (.verenc 7) ∧
    decode 0x43007C94 = .ok (.verdec 0x07C94) ∧ decode 0x02000000 = .error .unassignedOpcode ∧
    decode 0x10030701 = .error .reservedBitsSet

/-! ### One step -/

/-- When the oldest host event is a write to REG.CMD of a word that decodes to the command i, the step is exec of i on the
state with that event removed. In particular a step of the state withFetchWord makes from i's word is exec of i. (The queue of
host events and withFetchWord are the model's choice, Log 1.) -/
def Obligations.StepRunsDecodedCommand : Prop :=
  (∀ (s : State) (w : Word) (rest : List HostEvent) (i : Instr), s.pending = .write cmdAddr w :: rest →
      decode w = .ok i → step s = exec i { s with pending := rest }) ∧
    ∀ (s : State) (i : Instr), step (s.withFetchWord 32 (encode i).toNat) = exec i s

/-- A word written to REG.CMD that is the encoding of no command raises IllegalCommand, unless HALT is set: DONE = 0, ERR = 1,
ERRCODE = 6, ERRINFO = the word, and nothing else changes (the host event is consumed). -/
def Obligations.IllegalWordRaises : Prop :=
  ∀ (s : State) (w : Word) (rest : List HostEvent), s.pending = .write cmdAddr w :: rest → (∀ i, w ≠ encode i) →
    s.halt = false → step s = .next (({ s with pending := rest } : State).withError 6 w)

/-- The core never stops: every step of every state answers a next state and consumes exactly one host event, and with no
event pending the core is idle with all state held (the event queue is the model's own form of the host, Log 1, Log 2). -/
def Obligations.StepNeverStops : Prop :=
  (∀ s : State, ∃ t, step s = .next t ∧ t.pending = s.pending.tail) ∧
    ∀ s : State, s.pending = [] → step s = .next s

/-- While HALT is set every word written to REG.CMD but SRESET's is refused: DONE = 0, ERR = 1, ERRCODE = 8, ERRINFO = the word,
nothing else changes, illegal words included; host reads of every location but STATUS and every other host write have the
effect they have without HALT. -/
def Obligations.HaltedRefusesEveryWord : Prop :=
  (∀ (s : State) (w : Word) (rest : List HostEvent), s.pending = .write cmdAddr w :: rest → s.halt = true →
      w ≠ 0x01000000 → step s = .next (({ s with pending := rest } : State).withError 8 w)) ∧
    (∀ (s : State) (a : Addr) (h : Bool), a ≠ 1 → elementAt { s with halt := h } a = elementAt s a) ∧
    ∀ (s : State) (a : Addr) (w : Word) (h : Bool), a ≠ cmdAddr →
      hostWrite a w { s with halt := h } = { hostWrite a w s with halt := h }

/-! ### Checks and reports (30_encoding.md R80, R87, R88; 60_exceptions.md) -/

/-- BadOperand: for every command, not halted, ERRCODE is 7 afterwards exactly when an operand is outside its range (GFGEN
n ≤ 254, RSENC k + n ≤ 255, RSSYN and RSCOR n ≤ N, ANALYZE and ENCODE VERSION in 1..40, no range for the others), and then
nothing but the report changes. -/
def Obligations.BadOperandExactlyOutOfRange : Prop :=
  ∀ (i : Instr) (s : State), s.halt = false →
    ((∃ t, exec i s = .next t ∧ t.errcode = 7) ↔ ¬ OperandsInRange i s) ∧
      (¬ OperandsInRange i s → exec i s = .next (s.withError 7 (encode i)))

/-- SequenceError: for every command, not halted and with its operands in range, ERRCODE is 5 afterwards exactly when the bit of
VALID it requires is 0, and then nothing but the report changes. -/
def Obligations.SequenceErrorExactlyNotReady : Prop :=
  ∀ (i : Instr) (s : State), s.halt = false → OperandsInRange i s →
    ((∃ t, exec i s = .next t ∧ t.errcode = 5) ↔ ¬ Ready i s) ∧
      (¬ Ready i s → exec i s = .next (s.withError 5 (encode i)))

/-- After every command exactly one of DONE and ERR is 1; without an error ERRCODE and ERRINFO are 0; with one ERRINFO is the
command's word and ERRCODE is 1, 2, 3, 4, 5, 7 or 8: 1 only from ANALYZE and ENCODE, 2 only from FMTDEC and VERDEC, 3 only from
RSSPLIT, MATPLACE and ENCODE, 4 only from RSCOR, 5 only from a command that requires a bit of VALID (with GFRDY set only from
PACK, RSSPLIT, RSILV, MATINIT, MATPLACE, MASKEVAL, MASKSEL and INFOSTAMP), 7 only from GFGEN, RSENC, RSSYN, RSCOR, ANALYZE and
ENCODE, and 8 exactly for a command other than SRESET issued while HALT is set. (6 is for words that are no command.) -/
def Obligations.EveryCommandReportsOnce : Prop :=
  ∀ (i : Instr) (s t : State), exec i s = .next t →
    t.done = !t.err ∧ (t.err = false → t.errcode = 0 ∧ t.errinfo = 0) ∧
      (t.err = true → t.errinfo = encode i ∧ t.errcode ∈ [1, 2, 3, 4, 5, 7, 8#4]) ∧
      (t.errcode = 1 → i = .analyze ∨ i = .encode) ∧
      (t.errcode = 2 → (∃ raw, i = .fmtdec raw) ∨ ∃ raw, i = .verdec raw) ∧
      (t.errcode = 3 → i = .rssplit ∨ i = .matplace ∨ i = .encode) ∧
      (t.errcode = 4 → ∃ len n, i = .rscor len n) ∧
      (t.errcode = 5 → requiredBit i ≠ none ∧ (s.valid.getLsbD 0 = true → ∃ k, 2 ≤ k ∧ k ≤ 9 ∧ i = stageCommand k)) ∧
      (t.errcode = 7 → (∃ n, i = .gfgen n) ∨ (∃ k n, i = .rsenc k n) ∨ (∃ len n, i = .rssyn len n) ∨
        (∃ len n, i = .rscor len n) ∨ i = .analyze ∨ i = .encode) ∧
      (t.errcode = 8 ↔ s.halt = true ∧ i ≠ .sreset)

/-- HALT is sticky: a step that clears it is the hardware reset or a write of SRESET to REG.CMD; a step that sets it is a command
that ends with ERR = 1 and ERRCODE = 3 (StructuralInconsistency), issued as RSSPLIT, MATPLACE or ENCODE; and every command that
reports code 3 leaves HALT set. -/
def Obligations.HaltIsSticky : Prop :=
  (∀ s t : State, step s = .next t → s.halt = true → t.halt = false →
      s.pending.head? = some .reset ∨ s.pending.head? = some (.write cmdAddr 0x01000000)) ∧
    (∀ s t : State, step s = .next t → s.halt = false → t.halt = true →
      t.err = true ∧ t.errcode = 3 ∧ (s.pending.head? = some (.write cmdAddr 0x32000000) ∨
        s.pending.head? = some (.write cmdAddr 0x35000000) ∨ s.pending.head? = some (.write cmdAddr 0x3F000000))) ∧
    ∀ (i : Instr) (s t : State), exec i s = .next t → t.errcode = 3 → t.halt = true

/-! ### What commands leave unchanged -/

/-- No command changes VERSION, LEVEL or LEN except SRESET, none changes a byte of TEXT, only RSENC and RSCOR change a byte of
BLK, and no step changes a reference table. -/
def Obligations.CommandsKeepInputs : Prop :=
  (∀ (i : Instr) (s t : State), exec i s = .next t →
      (i ≠ .sreset → t.version = s.version ∧ t.level = s.level ∧ t.len = s.len) ∧
      (∀ a, a < 8192 → readByte t (textBase + a) = readByte s (textBase + a)) ∧
      ((∀ k n, i ≠ .rsenc k n) → (∀ len n, i ≠ .rscor len n) → ∀ a, readByte t a = readByte s a)) ∧
    ∀ s t : State, step s = .next t → t.rom = s.rom

/-- The stand-alone commands touch no pipeline state: after one of them every state component is as before but the report,
RES0, RES1, RES2, GEN, SYN, the bits 10 and 11 of VALID, and bytes of BLK (and the model's own bits of Log 6). -/
def Obligations.StandAloneLeavesPipeline : Prop :=
  ∀ (i : Instr) (s t : State), standAlone i = true → exec i s = .next t →
    { t.withReportOf s with res0 := s.res0, res1 := s.res1, res2 := s.res2, gen := s.gen, syn := s.syn, mem := s.mem } = s ∧
      t.valid &&& 0x3FF = s.valid &&& 0x3FF ∧
      ∀ a, (a < blkBase ∨ blkBase + 256 ≤ a) → readByte t a = readByte s a

/-- Every stage command writes only the outputs its rule names: after it, whether it completed or raised, every other register,
every buffer and all of memory are as before, the report and VALID aside (HALT too for the two that can raise
StructuralInconsistency). -/
def Obligations.StagesWriteOnlyTheirOutputs : Prop :=
  ∀ s t : State,
    (exec .analyze s = .next t →
      { t.withReportOf s with mode := s.mode, minver := s.minver, anvalid := s.anvalid, notice := s.notice } = s) ∧
    (exec .pack s = .next t →
      { t.withReportOf s with
        bits := s.bits, dcw := s.dcw, usedbits := s.usedbits, capbits := s.capbits, ndcw := s.ndcw } = s) ∧
    (exec .rssplit s = .next t →
      { t.withReportOf s with dblk := s.dblk, eblk := s.eblk, nblk := s.nblk, nec := s.nec, halt := s.halt } = s) ∧
    (exec .rsilv s = .next t → { t.withReportOf s with icw := s.icw, nicw := s.nicw } = s) ∧
    (exec .matinit s = .next t →
      { t.withReportOf s with mtype := s.mtype, mfunc := s.mfunc, size := s.size, ndata := s.ndata } = s) ∧
    (exec .matplace s = .next t → { t.withReportOf s with mpre := s.mpre, halt := s.halt } = s) ∧
    (exec .maskeval s = .next t → { t.withReportOf s with mcand := s.mcand, pen := s.pen } = s) ∧
    (exec .masksel s = .next t → { t.withReportOf s with masksel := s.masksel } = s) ∧
    (exec .infostamp s = .next t →
      { t.withReportOf s with mfinal := s.mfinal, formatinfo := s.formatinfo, versioninfo := s.versioninfo } = s)

/-- The valid bits of a stage command that passed its checks: stage k leaves every bit below k and bits 10, 11 as they were,
clears the bits of the later stages, and its own bit is 1 if it completed and 0 if it raised. -/
def Obligations.StageValidBits : Prop :=
  ∀ (k : Nat) (s t : State), 1 ≤ k → k ≤ 9 → s.halt = false → OperandsInRange (stageCommand k) s →
    Ready (stageCommand k) s → exec (stageCommand k) s = .next t →
    ∀ j, t.valid.getLsbD j =
      if j < k ∨ 9 < j then s.valid.getLsbD j else if j = k then t.done else false

/-! ### Invariants -/

/-- The state after hardware reset satisfies the control invariant, and every valid bit is honest there. -/
def Obligations.ResetSatisfiesInvariants : Prop :=
  ControlInv State.reset ∧ Coherent State.reset

/-- Every step keeps the control invariant: canonical memory inside TEXT and BLK, GFRDY set, the chain of the stage bits, at
most one of DONE and ERR, the error registers in agreement, HALT only with an error, a legal MODE and MINVER, GEN a generator
polynomial and SYN within its space. (Log 6's bits are the model's own clause.) -/
def Obligations.StepKeepsControlInv : Prop :=
  ∀ s t : State, ControlInv s → step s = .next t → ControlInv t

/-- Every step keeps the valid bits honest: if each set bit of VALID stands for outputs that the stage's rule, run on the
current state, would leave exactly as they are, then so it is after the step. -/
def Obligations.StepKeepsCoherence : Prop :=
  ∀ s t : State, Coherent s → step s = .next t → Coherent t

/-! ### ENCODE (48_sequencer.md) -/

/-- From every state, ENCODE and the nine stage commands issued in order, stopping at the first that raises, end in the same
state: in every component if ENCODE completes, and in every component but ERRINFO, which is ENCODE's word, if it raises. -/
def Obligations.EncodeIsTheStageSequence : Prop :=
  ∀ s : State, { after .encode s with errinfo := 0 } = { issue pipeline s with errinfo := 0 } ∧
    ((after .encode s).err = false → after .encode s = issue pipeline s) ∧
    ((after .encode s).err = true → (after .encode s).errinfo = 0x3F000000)

/-- Under the premises on the tables at the current version and level, ENCODE of a text that fits completes with
VALID[9:0] = 0x3FF and leaves VERSION, LEVEL, LEN and memory as they were; of a text that does not fit it raises DataTooLarge
with VALID bits 1 to 9 all 0 and MODE, MINVER, ANVALID written. Either way NOTICE says whether kanji was downgraded. -/
def Obligations.EncodeCompletes : Prop :=
  ∀ s : State, s.halt = false → s.valid.getLsbD 0 = true → 1 ≤ s.version.toNat → s.version.toNat ≤ 40 →
    (TablesFit s → textFits s = true →
      ∃ t, exec .encode s = .next t ∧ t.done = true ∧ t.err = false ∧ t.errcode = 0 ∧ t.errinfo = 0 ∧ t.halt = false ∧
        t.valid &&& 0x3FF = 0x3FF ∧ t.version = s.version ∧ t.level = s.level ∧ t.len = s.len ∧ t.mem = s.mem ∧
        t.notice = kanjiText (textBytes s)) ∧
    (textFits s = false →
      ∃ t, exec .encode s = .next t ∧ t.done = false ∧ t.err = true ∧ t.errcode = 1 ∧ t.errinfo = 0x3F000000 ∧
        t.valid &&& 0x3FE = 0 ∧ t.mode = modeIndicator (analyzedMode s) ∧ t.anvalid = (analyzedMinimum s).isSome ∧
        t.minver.toNat = (analyzedMinimum s).getD 40 ∧ t.notice = kanjiText (textBytes s))

/-! ### The host port (20_memory.md, 10_state.md) -/

/-- A host read has no side effect: only the word returned changes (and the model's own counter of free values, Log 4). The
registers of space 0 read as 10_state.md lays them out, each group of pipeline outputs while its valid bit is set. -/
def Obligations.HostReadsRegisters : Prop :=
  (∀ (s : State) (a : Addr) (rest : List HostEvent), s.pending = .read a :: rest →
      (∃ w n, step s = .next { s with pending := rest, hostData := w, freeCtr := n }) ∧
      ∀ w, elementAt s a = .known w → step s = .next { s with pending := rest, hostData := w }) ∧
    ∀ s : State, s.valid &&& ~~~s.held = 0 →
      elementAt s 0x00 = .known 0 ∧
      (∃ w, elementAt s 0x01 = .known w ∧ w.getLsbD 0 = false ∧ w.getLsbD 1 = s.done ∧ w.getLsbD 2 = s.err ∧
        w.getLsbD 3 = s.halt ∧ w.getLsbD 4 = s.notice ∧ w >>> 5 = 0) ∧
      elementAt s 0x02 = .known (s.errcode.setWidth 32) ∧ elementAt s 0x03 = .known s.errinfo ∧
      elementAt s 0x04 = .known (s.valid.setWidth 32) ∧ elementAt s 0x05 = .known (s.version.setWidth 32) ∧
      elementAt s 0x06 = .known (s.level.setWidth 32) ∧ elementAt s 0x07 = .known (s.len.setWidth 32) ∧
      (s.valid.getLsbD 1 = true → elementAt s 0x08 = .known (s.mode.setWidth 32) ∧
        elementAt s 0x09 = .known (s.minver.setWidth 32) ∧ elementAt s 0x0A = .known (if s.anvalid then 1 else 0)) ∧
      (s.valid.getLsbD 2 = true → elementAt s 0x0B = .known (s.usedbits.setWidth 32) ∧
        elementAt s 0x0C = .known (s.capbits.setWidth 32) ∧ elementAt s 0x0D = .known (s.ndcw.setWidth 32)) ∧
      (s.valid.getLsbD 3 = true → elementAt s 0x0E = .known (s.nblk.setWidth 32) ∧
        elementAt s 0x0F = .known (s.nec.setWidth 32)) ∧
      (s.valid.getLsbD 4 = true → elementAt s 0x10 = .known (s.nicw.setWidth 32)) ∧
      (s.valid.getLsbD 5 = true → elementAt s 0x11 = .known (s.size.setWidth 32) ∧
        elementAt s 0x12 = .known (s.ndata.setWidth 32)) ∧
      (s.valid.getLsbD 8 = true → elementAt s 0x13 = .known (s.masksel.setWidth 32)) ∧
      (s.valid.getLsbD 9 = true → elementAt s 0x14 = .known (s.formatinfo.setWidth 32) ∧
        (s.versioninfo = none → elementAt s 0x15 = .known 0) ∧
        ∀ v, s.versioninfo = some v → elementAt s 0x15 = .known (0x80000000 ||| v.setWidth 32)) ∧
      elementAt s 0x18 = .known s.res0 ∧ elementAt s 0x19 = .known s.res1 ∧ elementAt s 0x1A = .known s.res2 ∧
      (s.valid.getLsbD 7 = true → ∀ p : Fin 8,
        elementAt s (BitVec.ofNat 24 (0x40 + 8 * p.val)) = .known s.pen[p].n1 ∧
        elementAt s (BitVec.ofNat 24 (0x41 + 8 * p.val)) = .known s.pen[p].n2 ∧
        elementAt s (BitVec.ofNat 24 (0x42 + 8 * p.val)) = .known s.pen[p].n3 ∧
        elementAt s (BitVec.ofNat 24 (0x43 + 8 * p.val)) = .known s.pen[p].n4 ∧
        elementAt s (BitVec.ofNat 24 (0x44 + 8 * p.val)) = .known s.pen[p].total ∧
        elementAt s (BitVec.ofNat 24 (0x45 + 8 * p.val)) = .known s.pen[p].dark)

/-- The buffers and the tables read as laid out: an element within the current contents of a valid buffer is returned
zero-extended, a module type by its code 0 to 7, a module value by 0 light, 1 dark, 2 empty, at the index of its space; an index
of a valid module value buffer that is no cell of the matrix reads 0; space 15 reads EXP and LOG, and for every version and level
code CAP, the plan's check codeword count, number of groups and two groups, the alignment coordinates behind their number, and
VERREF, each at the index of its table. (The sizes of spaces 2, 3 and 6 follow from the tables, Log 13.) -/
def Obligations.HostReadsBuffers : Prop :=
  ∀ s : State,
    (∀ i < 8192, elementAt s (BitVec.ofNat 24 (0x100000 + i)) = .known ((readByte s (textBase + i)).setWidth 32)) ∧
    (∀ i < 256, elementAt s (BitVec.ofNat 24 (0xC00000 + i)) = .known ((readByte s (blkBase + i)).setWidth 32)) ∧
    (s.valid.getLsbD 2 = true →
      (∀ i < 0x100000, i < bitsSize s.rom → ∀ b, s.bits[i]? = some b →
        elementAt s (BitVec.ofNat 24 (0x200000 + i)) = .known (if b then 1 else 0)) ∧
      ∀ i < 0x100000, i < dcwSize s.rom → ∀ b, s.dcw[i]? = some b →
        elementAt s (BitVec.ofNat 24 (0x300000 + i)) = .known (b.setWidth 32)) ∧
    (s.valid.getLsbD 3 = true → ∀ b ≤ 80, ∀ i < 255, ∀ x,
      ((s.dblk.getD b [])[i]? = some x →
        elementAt s (BitVec.ofNat 24 (0x400000 + 256 * b + i)) = .known (x.setWidth 32)) ∧
      ((s.eblk.getD b [])[i]? = some x →
        elementAt s (BitVec.ofNat 24 (0x500000 + 256 * b + i)) = .known (x.setWidth 32))) ∧
    (s.valid.getLsbD 4 = true → ∀ i < 0x100000, i < icwSize s.rom → ∀ b, s.icw[i]? = some b →
      elementAt s (BitVec.ofNat 24 (0x600000 + i)) = .known (b.setWidth 32)) ∧
    (∀ r ≤ 176, ∀ c ≤ 176,
      (s.valid.getLsbD 5 = true →
        (∀ y, (s.mtype.getD r [])[c]? = some y →
          elementAt s (BitVec.ofNat 24 (0x700000 + 256 * r + c)) = .known (typeCode y)) ∧
        ∀ v, (s.mfunc.getD r [])[c]? = some v →
          elementAt s (BitVec.ofNat 24 (0x800000 + 256 * r + c)) = .known (moduleCode v)) ∧
      (s.valid.getLsbD 6 = true → ∀ v, (s.mpre.getD r [])[c]? = some v →
        elementAt s (BitVec.ofNat 24 (0x900000 + 256 * r + c)) = .known (moduleCode v)) ∧
      (s.valid.getLsbD 7 = true → ∀ (p : Fin 8) (v : Module), (s.mcand[p].getD r [])[c]? = some v →
        elementAt s (BitVec.ofNat 24 (0xA00000 + 65536 * p.val + 256 * r + c)) = .known (moduleCode v)) ∧
      (s.valid.getLsbD 9 = true → ∀ v, (s.mfinal.getD r [])[c]? = some v →
        elementAt s (BitVec.ofNat 24 (0xB00000 + 256 * r + c)) = .known (moduleCode v))) ∧
    (∀ r < 256, ∀ c < 256,
      (s.valid.getLsbD 5 = true → (s.mfunc.getD r [])[c]? = none →
        elementAt s (BitVec.ofNat 24 (0x800000 + 256 * r + c)) = .known 0) ∧
      (s.valid.getLsbD 6 = true → (s.mpre.getD r [])[c]? = none →
        elementAt s (BitVec.ofNat 24 (0x900000 + 256 * r + c)) = .known 0) ∧
      (s.valid.getLsbD 7 = true → ∀ p : Fin 8, (s.mcand[p].getD r [])[c]? = none →
        elementAt s (BitVec.ofNat 24 (0xA00000 + 65536 * p.val + 256 * r + c)) = .known 0) ∧
      (s.valid.getLsbD 9 = true → (s.mfinal.getD r [])[c]? = none →
        elementAt s (BitVec.ofNat 24 (0xB00000 + 256 * r + c)) = .known 0)) ∧
    (s.valid.getLsbD 10 = true → ∀ i < 256, ∀ b, s.gen[i]? = some b →
      elementAt s (BitVec.ofNat 24 (0xD00000 + i)) = .known (b.setWidth 32)) ∧
    (s.valid.getLsbD 11 = true → ∀ i < 255, ∀ b, s.syn[i]? = some b →
      elementAt s (BitVec.ofNat 24 (0xE00000 + i)) = .known (b.setWidth 32)) ∧
    (∀ i < 256, elementAt s (BitVec.ofNat 24 (0xF00000 + i)) = .known ((gfExp i).setWidth 32) ∧
      elementAt s (BitVec.ofNat 24 (0xF00100 + i)) = .known (BitVec.ofNat 32 (gfLog (BitVec.ofNat 8 i)))) ∧
    (∀ v, 1 ≤ v → v ≤ 40 → ∀ lc : BitVec 2,
      elementAt s (BitVec.ofNat 24 (0xF10000 + 4 * (v - 1) + lc.toNat)) = .known (BitVec.ofNat 32 (capOf s.rom v lc)) ∧
      let base := 0xF20000 + 8 * (4 * (v - 1) + lc.toNat)
      let plan := planOf s.rom v lc
      elementAt s (BitVec.ofNat 24 base) = .known (BitVec.ofNat 32 plan.ec) ∧
      elementAt s (BitVec.ofNat 24 (base + 1)) = .known (BitVec.ofNat 32 plan.groups.length) ∧
      (∀ g < 2, elementAt s (BitVec.ofNat 24 (base + 2 + 2 * g)) = .known (BitVec.ofNat 32 (plan.groups.getD g (0, 0)).1) ∧
        elementAt s (BitVec.ofNat 24 (base + 3 + 2 * g)) = .known (BitVec.ofNat 32 (plan.groups.getD g (0, 0)).2)) ∧
      elementAt s (BitVec.ofNat 24 (base + 6)) = .known 0 ∧ elementAt s (BitVec.ofNat 24 (base + 7)) = .known 0) ∧
    (∀ v, 1 ≤ v → v ≤ 40 →
      elementAt s (BitVec.ofNat 24 (0xF30000 + 8 * (v - 1)))
        = .known (BitVec.ofNat 32 (alignOf s.rom v).length) ∧
      ∀ j < 7, elementAt s (BitVec.ofNat 24 (0xF30000 + 8 * (v - 1) + (j + 1)))
        = .known (BitVec.ofNat 32 ((alignOf s.rom v).getD j 0))) ∧
    ∀ v < 64, elementAt s (BitVec.ofNat 24 (0xF40000 + v))
      = .known (if 7 ≤ v ∧ v ≤ 40 then (s.rom.verref.getD (v - 7) 0).setWidth 32 else 0)

/-- A read whose index lies beyond the last element of its space, in no range of the ROM layout, or at an unassigned register
number returns 0 and changes nothing else. (The sizes of spaces 2, 3 and 6 follow from the tables, Log 13.) -/
def Obligations.ReadBeyondSpaceIsZero : Prop :=
  ∀ (s : State) (a : Addr) (rest : List HostEvent), s.pending = .read a :: rest → beyondSpace s.rom a = true →
    step s = .next { s with pending := rest, hostData := 0 }

/-- Write then read: after a host write to VERSION, LEVEL, LEN, a TEXT element or a BLK element, a host read of the same address
returns the written word cut to the element's width, and every other byte of TEXT and BLK is as before. -/
def Obligations.ReadReturnsLastWrite : Prop :=
  ∀ (s : State) (a : Addr) (w : Word) (rest : List HostEvent), s.pending = .write a w :: .read a :: rest →
    hostWritable a = true → a ≠ cmdAddr →
    ∃ t u, step s = .next t ∧ step t = .next u ∧ u.pending = rest ∧
      u.hostData = (if a = 5 then (w.setWidth 6).setWidth 32 else if a = 6 then (w.setWidth 2).setWidth 32
        else if a = 7 then (w.setWidth 13).setWidth 32 else (w.setWidth 8).setWidth 32) ∧
      ∀ b, b ≠ a.toNat → readByte u b = readByte s b

/-- A host write to VERSION, LEVEL, LEN or an element of TEXT clears VALID bits 1 to 9, even when it writes the same value, and
touches no other bit of VALID; a write to BLK touches no bit of VALID; neither changes anything but the element it names. -/
def Obligations.InputWriteEndsRun : Prop :=
  ∀ (s : State) (a : Addr) (w : Word) (rest : List HostEvent), s.pending = .write a w :: rest →
    (a = 5 → step s = .next { s with
      pending := rest, version := w.setWidth 6, valid := s.valid &&& 0xC01, held := s.held &&& 0xC01 }) ∧
    (a = 6 → step s = .next { s with
      pending := rest, level := w.setWidth 2, valid := s.valid &&& 0xC01, held := s.held &&& 0xC01 }) ∧
    (a = 7 → step s = .next { s with
      pending := rest, len := w.setWidth 13, valid := s.valid &&& 0xC01, held := s.held &&& 0xC01 }) ∧
    (∀ i < 8192, a = BitVec.ofNat 24 (0x100000 + i) →
      step s = .next { s with
        pending := rest, mem := insertCell (textBase + i) (w.setWidth 8) s.mem,
        valid := s.valid &&& 0xC01, held := s.held &&& 0xC01 }) ∧
    (∀ i < 256, a = BitVec.ofNat 24 (0xC00000 + i) →
      step s = .next { s with pending := rest, mem := insertCell (blkBase + i) (w.setWidth 8) s.mem })

/-- A host write to any address other than REG.CMD, VERSION, LEVEL, LEN and the elements of TEXT and BLK is ignored: nothing
changes (the host event is consumed). -/
def Obligations.ReadOnlyWriteIgnored : Prop :=
  ∀ (s : State) (a : Addr) (w : Word) (rest : List HostEvent), s.pending = .write a w :: rest →
    hostWritable a = false → step s = .next { s with pending := rest }

/-- After hardware reset every register reads 0 but VALID, which reads 1; and the hardware reset event leaves exactly the reset
state from every state, memory with nothing listed, but for the model's own fields (the queue, the word last read, the counters,
the tables: Log 16, Log 22). That the registers of invalid groups read 0 is Log 6's reading of R50 over R25 (e); that the
read-only buffers are empty lists is Log 19's choice. -/
def Obligations.ResetState : Prop :=
  (∀ i < 0x100000, elementAt State.reset (BitVec.ofNat 24 i) = .known (if i = 4 then 1 else 0)) ∧
    ∀ (s : State) (rest : List HostEvent), s.pending = .reset :: rest →
      step s = .next { State.reset with
        pending := rest, hostData := s.hostData, freeCtr := s.freeCtr, memEpoch := s.memEpoch + 1, rom := s.rom }

/-! ### What each command does. Every state component a next state does not name is as before. `held := t.held` leaves the
model's own bits of Log 6 open. -/

/-- NOP completes with the report of success and no other effect; while HALT is set it raises Halted. -/
def Obligations.NopCompletes : Prop :=
  ∀ s : State, (s.halt = false → exec .nop s = .next s.withDone) ∧
    (s.halt = true → exec .nop s = .next (s.withError 8 0x00000000))

/-- SRESET completes from every state, halted or not: every register at its reset value but DONE = 1, every byte of TEXT and BLK
kept (and the model's own fields, Log 22). That the read-only buffers, which are invalid, are empty lists is Log 19's choice. -/
def Obligations.SresetCompletes : Prop :=
  ∀ s : State, ∃ t, exec .sreset s = .next t ∧
    t = { State.reset with
      pending := s.pending, hostData := s.hostData, freeCtr := s.freeCtr, memEpoch := s.memEpoch, rom := s.rom,
      mem := s.mem, done := true } ∧
    t.halt = false ∧ t.notice = false ∧ t.valid = 1 ∧ ∀ a, readByte t a = readByte s a

/-- GFMUL a, b completes with RES0 = gfmul(a, b), zero-extended, and writes nothing else; gfmul is 0 if an operand is 0 and
EXP[(LOG[a] + LOG[b]) mod 255] otherwise. -/
def Obligations.GfmulCompletes : Prop :=
  ∀ (a b : BitVec 8) (s : State), s.halt = false → s.valid.getLsbD 0 = true →
    exec (.gfmul a b) s = .next { s.withDone with
      res0 := if a = 0 ∨ b = 0 then 0 else (gfExp ((gfLog a + gfLog b) % 255)).setWidth 32 }

/-- GFGEN n with n ≤ 254 completes with GEN = genpoly(n), RES0 = n and GENV set, and writes nothing else; GFGEN 255 raises
BadOperand and writes nothing. -/
def Obligations.GfgenCompletes : Prop :=
  ∀ (n : BitVec 8) (s : State), s.halt = false → s.valid.getLsbD 0 = true →
    (n.toNat ≤ 254 → ∃ t, exec (.gfgen n) s = .next t ∧
      t = { s.withDone with
        gen := genpoly n.toNat, res0 := n.setWidth 32, valid := s.valid ||| 0x400, held := t.held }) ∧
    (n = 255 → exec (.gfgen n) s = .next (s.withError 7 0x11FF0000))

/-- RSENC k, n with k + n ≤ 255 completes: BLK[k..k+n-1] holds rsecc of BLK[0..k-1], every other byte of memory reads as before,
GEN = genpoly(n), RES0 = n, GENV set, and nothing else changes. With k + n > 255 it raises BadOperand and writes nothing. -/
def Obligations.RsencCompletes : Prop :=
  ∀ (k n : BitVec 8) (s : State), s.halt = false → s.valid.getLsbD 0 = true →
    (k.toNat + n.toNat ≤ 255 → ∃ t, exec (.rsenc k n) s = .next t ∧
      { t with mem := s.mem } = { s.withDone with
        gen := genpoly n.toNat, res0 := n.setWidth 32, valid := s.valid ||| 0x400, held := t.held } ∧
      (∀ j < n.toNat, (rsecc (blkBytes s k.toNat) n.toNat)[j]? = some (readByte t (blkBase + k.toNat + j))) ∧
      ∀ a, (a < blkBase + k.toNat ∨ blkBase + k.toNat + n.toNat ≤ a) → readByte t a = readByte s a) ∧
    (255 < k.toNat + n.toNat → exec (.rsenc k n) s = .next (s.withError 7 (encode (.rsenc k n))))

/-- RSSYN N, n with n ≤ N completes: SYN holds the n syndromes of BLK[0..N-1], each the received polynomial evaluated at a power
of the primitive element by Horner's rule, SYNV is set, RES0 is the number of non-zero ones, and nothing else changes, BLK
included. With n > N it raises BadOperand and writes nothing. -/
def Obligations.RssynCompletes : Prop :=
  ∀ (len n : BitVec 8) (s : State), s.halt = false → s.valid.getLsbD 0 = true →
    (n.toNat ≤ len.toNat →
      ∃ t, exec (.rssyn len n) s = .next t ∧
        t.syn = (List.range n.toNat).map
          (fun j => (blkBytes s len.toNat).foldl (fun v c => gfmul v (gfExp j) ^^^ c) 0) ∧
        t = { s.withDone with
          syn := t.syn, res0 := BitVec.ofNat 32 (t.syn.countP fun x => x ≠ 0), valid := s.valid ||| 0x800,
          held := t.held }) ∧
    (len.toNat < n.toNat → exec (.rssyn len n) s = .next (s.withError 7 (encode (.rssyn len n))))

/-- RSCOR N, n with n ≤ N records the syndromes of the block as received (SYN, SYNV, RES0). Where rscorrect gives a codeword and
a count e it completes with BLK[0..N-1] = that codeword and RES1 = e; where it fails it raises RSUncorrectable with RES1 = -1
and every byte of memory as before. Bytes outside BLK[0..N-1] and everything else are unchanged. With n > N it raises BadOperand
and writes nothing. -/
def Obligations.RscorResult : Prop :=
  ∀ (len n : BitVec 8) (s : State), s.halt = false → s.valid.getLsbD 0 = true →
    (n.toNat ≤ len.toNat →
      let r := blkBytes s len.toNat
      let nonzero := BitVec.ofNat 32 ((syndromes r n.toNat).countP fun x => x ≠ 0)
      (∀ w e, rscorrect r n.toNat = some (w, e) →
        ∃ t, exec (.rscor len n) s = .next t ∧
          { t with mem := s.mem } = { s.withDone with
            syn := syndromes r n.toNat, res0 := nonzero, res1 := BitVec.ofNat 32 e, valid := s.valid ||| 0x800,
            held := t.held } ∧
          (∀ j < len.toNat, w[j]? = some (readByte t (blkBase + j))) ∧
          ∀ a, (a < blkBase ∨ blkBase + len.toNat ≤ a) → readByte t a = readByte s a) ∧
      (rscorrect r n.toNat = none →
        ∃ t, exec (.rscor len n) s = .next t ∧
          t = { s.withError 4 (encode (.rscor len n)) with
            syn := syndromes r n.toNat, res0 := nonzero, res1 := 0xFFFFFFFF, valid := s.valid ||| 0x800,
            held := t.held })) ∧
    (len.toNat < n.toNat → exec (.rscor len n) s = .next (s.withError 7 (encode (.rscor len n))))

/-- ANALYZE with VERSION in 1..40 writes MODE, NOTICE, MINVER and ANVALID from the text, the level and the capacity table, and
clears VALID bits 1 to 9. If a version holds the text and the requested one does, it completes and sets ANALYZED; otherwise it
raises DataTooLarge, with MINVER = 40 and ANVALID = 0 if no version holds the text. Nothing else changes. Either way host reads
of the three registers and of NOTICE return what was written. With VERSION out of range it raises BadOperand and writes nothing. (That they
stay readable although ANALYZED is 0 after DataTooLarge is R106 and R347 read over R25 (e), Log 6.) -/
def Obligations.AnalyzeResult : Prop :=
  ∀ s : State, s.halt = false → s.valid.getLsbD 0 = true →
    (1 ≤ s.version.toNat → s.version.toNat ≤ 40 →
      let m := downgrade (dominantMode (textBytes s))
      let found := minimumVersion s.rom s.level m s.len.toNat
      let need := 4 + ccbits m s.version.toNat + databits m s.len.toNat
      let readable := fun t : State =>
        elementAt t 0x08 = .known ((modeIndicator m).setWidth 32) ∧
        elementAt t 0x09 = .known ((BitVec.ofNat 6 (found.getD 40)).setWidth 32) ∧
        elementAt t 0x0A = .known (if found.isSome then 1 else 0) ∧
        ∃ w, elementAt t 0x01 = .known w ∧ w.getLsbD 4 = kanjiText (textBytes s)
      (found.isSome = true → need ≤ capOf s.rom s.version.toNat s.level →
        ∃ t, exec .analyze s = .next t ∧
          t = { s.withDone with
            mode := modeIndicator m, notice := kanjiText (textBytes s), minver := BitVec.ofNat 6 (found.getD 40),
            anvalid := true, valid := (s.valid &&& 0xC01) ||| 0x002, held := t.held } ∧ readable t) ∧
      ((found = none ∨ capOf s.rom s.version.toNat s.level < need) →
        ∃ t, exec .analyze s = .next t ∧
          t = { s.withError 1 0x30000000 with
            mode := modeIndicator m, notice := kanjiText (textBytes s), minver := BitVec.ofNat 6 (found.getD 40),
            anvalid := found.isSome, valid := s.valid &&& 0xC01, held := t.held } ∧ readable t)) ∧
    ((s.version.toNat = 0 ∨ 40 < s.version.toNat) → exec .analyze s = .next (s.withError 7 0x30000000))

/-- PACK with ANALYZED set completes: the stream of mode indicator, character count and data, its length in USEDBITS, padded to
the capacity, in BITS, the capacity in CAPBITS, an eighth of it in NDCW, the codewords cut from it in DCW; PACKED set, later
stage bits cleared, nothing else changed. Without ANALYZED it raises SequenceError and writes nothing. -/
def Obligations.PackCompletes : Prop :=
  ∀ s : State, s.halt = false →
    (s.valid.getLsbD 1 = true →
      let cap := capOf s.rom s.version.toNat s.level
      let m := modeOfIndicator s.mode
      let used := bitsMsb 4 s.mode.toNat ++ bitsMsb (ccbits m s.version.toNat) s.len.toNat ++ dataStream m (textBytes s)
      ∃ t, exec .pack s = .next t ∧
        t = { s.withDone with
          usedbits := BitVec.ofNat 15 used.length, bits := packedStream cap used, capbits := BitVec.ofNat 15 cap,
          ndcw := BitVec.ofNat 12 (cap / 8), dcw := sliceCodewords (cap / 8) (packedStream cap used),
          valid := (s.valid &&& 0xC03) ||| 0x004, held := t.held }) ∧
    (s.valid.getLsbD 1 = false → exec .pack s = .next (s.withError 5 0x31000000))

/-- RSSPLIT with PACKED set, where the plan adds up to NDCW, completes: EBLK the check codewords of each block of DBLK on its
own, NBLK, NEC, SPLIT set, later stage bits cleared, nothing else changed; if DCW has NDCW codewords, DBLK joined together is
DCW and its block lengths are the plan's in the declared order. Where the plan does not add up it raises StructuralInconsistency
with HALT set and bits 3 to 9 cleared, nothing else changed. Without PACKED it raises SequenceError and writes nothing. -/
def Obligations.RssplitResult : Prop :=
  ∀ s : State, s.halt = false →
    (s.valid.getLsbD 2 = true →
      let plan := planOf s.rom s.version.toNat s.level
      let lengths := plan.groups.flatMap fun g => List.replicate g.1 g.2
      (lengths.sum = s.ndcw.toNat →
        ∃ t, exec .rssplit s = .next t ∧
          t = { s.withDone with
            dblk := t.dblk, eblk := t.dblk.map fun d => rsecc d plan.ec, nblk := BitVec.ofNat 7 lengths.length,
            nec := BitVec.ofNat 8 plan.ec, valid := (s.valid &&& 0xC07) ||| 0x008, held := t.held } ∧
          (s.dcw.length = s.ndcw.toNat → t.dblk.flatten = s.dcw ∧ t.dblk.map List.length = lengths)) ∧
      (lengths.sum ≠ s.ndcw.toNat →
        ∃ t, exec .rssplit s = .next t ∧
          t = { s.withError 3 0x32000000 with halt := true, valid := s.valid &&& 0xC07, held := t.held })) ∧
    (s.valid.getLsbD 2 = false → exec .rssplit s = .next (s.withError 5 0x32000000))

/-- RSILV with SPLIT set completes: ICW is the data blocks read column by column followed by the EC blocks read column by
column, so every element of every block appears in it exactly once; NICW = NDCW + NBLK·NEC; ILV set, later stage bits cleared,
nothing else changed. Without SPLIT it raises SequenceError and writes nothing. -/
def Obligations.RsilvCompletes : Prop :=
  ∀ s : State, s.halt = false →
    (s.valid.getLsbD 3 = true →
      let data := s.dblk.take s.nblk.toNat
      let check := s.eblk.take s.nblk.toNat
      ∃ t, exec .rsilv s = .next t ∧
        t = { s.withDone with
          icw := columns data ++ columns check, nicw := BitVec.ofNat 12 (s.ndcw.toNat + s.nblk.toNat * s.nec.toNat),
          valid := (s.valid &&& 0xC0F) ||| 0x010, held := t.held } ∧
        t.icw.Perm (data.flatten ++ check.flatten)) ∧
    (s.valid.getLsbD 3 = false → exec .rsilv s = .next (s.withError 5 0x33000000))

/-- MATINIT with ILV set completes with MTYPE, MFUNC, SIZE, NDATA and MINIT set, later stage bits cleared, nothing else changed.
For a version 1 to 40, whatever the alignment table: both matrices are size × size with size = 4·VERSION + 17 = SIZE, cell by
cell the stamped patterns, no cell has type empty, a cell has value E exactly when its type is data, NDATA is the number of
those, and the cell (size-8, 8) is dark of type format. Without ILV it raises SequenceError and writes nothing. -/
def Obligations.MatinitCompletes : Prop :=
  ∀ s : State, s.halt = false →
    (s.valid.getLsbD 4 = true →
      ∃ t, exec .matinit s = .next t ∧
        t = { s.withDone with
          mtype := t.mtype, mfunc := t.mfunc, size := t.size, ndata := t.ndata,
          valid := (s.valid &&& 0xC1F) ||| 0x020, held := t.held } ∧
        (1 ≤ s.version.toNat → s.version.toNat ≤ 40 →
          t.size.toNat = 4 * s.version.toNat + 17 ∧ SquareGrid t.size.toNat t.mtype ∧ SquareGrid t.size.toNat t.mfunc ∧
          t.ndata.toNat = countData t.mtype ∧
          (∀ r c, r < t.size.toNat → c < t.size.toNat →
            (cellAt .empty t.mfunc r c, cellAt .empty t.mtype r c)
              = functionCell s.version.toNat (alignOf s.rom s.version.toNat) r c ∧
            cellAt .empty t.mtype r c ≠ .empty ∧
            (cellAt .empty t.mfunc r c = .empty ↔ cellAt .empty t.mtype r c = .data)) ∧
          cellAt .empty t.mfunc (t.size.toNat - 8) 8 = .dark ∧ cellAt .empty t.mtype (t.size.toNat - 8) 8 = .format)) ∧
    (s.valid.getLsbD 4 = false → exec .matinit s = .next (s.withError 5 0x34000000))

/-- MATPLACE with MINIT set, where R = NDATA - 8·NICW is in 0..7, completes with MPRE = MFUNC with the placement stream (the
codewords most significant bit first, then R zero bits) on the cells of the scan order, PLACED set, later stage bits cleared,
nothing else changed. Where R is not in 0..7 it raises StructuralInconsistency with HALT set and bits 6 to 9 cleared, nothing
else changed. Without MINIT it raises SequenceError and writes nothing. -/
def Obligations.MatplaceResult : Prop :=
  ∀ s : State, s.halt = false →
    (s.valid.getLsbD 5 = true →
      (8 * s.nicw.toNat ≤ s.ndata.toNat → s.ndata.toNat ≤ 8 * s.nicw.toNat + 7 →
        ∃ t, exec .matplace s = .next t ∧
          t = { s.withDone with
            mpre := placeBits s.mfunc (scanOrder s.mtype s.size.toNat)
              ((s.icw.take s.nicw.toNat).flatMap (fun w => (List.range 8).map fun i => w.getLsbD (7 - i))
                ++ List.replicate (s.ndata.toNat - 8 * s.nicw.toNat) false),
            valid := (s.valid &&& 0xC3F) ||| 0x040, held := t.held }) ∧
      ((s.ndata.toNat < 8 * s.nicw.toNat ∨ 8 * s.nicw.toNat + 7 < s.ndata.toNat) →
        ∃ t, exec .matplace s = .next t ∧
          t = { s.withError 3 0x35000000 with halt := true, valid := s.valid &&& 0xC3F, held := t.held })) ∧
    (s.valid.getLsbD 5 = false → exec .matplace s = .next (s.withError 5 0x35000000))

/-- MASKEVAL with PLACED set completes and changes only MCAND, PEN and VALID (EVALD set, later stage bits cleared): cell (r, c)
of candidate p is the pre-mask cell inverted where it is a data cell and predicate p holds, and the pre-mask cell elsewhere;
PEN[p] holds N1, N2, N3, N4, their sum and the dark count of candidate p; the eight predicates are those of the spec's table.
Without PLACED it raises SequenceError and writes nothing. -/
def Obligations.MaskevalCompletes : Prop :=
  (∀ i j : Nat,
    (maskPredicate 0 i j ↔ (i + j) % 2 = 0) ∧ (maskPredicate 1 i j ↔ i % 2 = 0) ∧
    (maskPredicate 2 i j ↔ j % 3 = 0) ∧ (maskPredicate 3 i j ↔ (i + j) % 3 = 0) ∧
    (maskPredicate 4 i j ↔ (i / 2 + j / 3) % 2 = 0) ∧ (maskPredicate 5 i j ↔ (i * j) % 2 + (i * j) % 3 = 0) ∧
    (maskPredicate 6 i j ↔ ((i * j) % 2 + (i * j) % 3) % 2 = 0) ∧
    (maskPredicate 7 i j ↔ ((i + j) % 2 + (i * j) % 3) % 2 = 0)) ∧
  ∀ s : State, s.halt = false →
    (s.valid.getLsbD 6 = true →
      ∃ t, exec .maskeval s = .next t ∧
        t = { s.withDone with
          mcand := t.mcand, pen := t.pen, valid := (s.valid &&& 0xC7F) ||| 0x080, held := t.held } ∧
        ∀ p : Fin 8,
          SquareGrid s.size.toNat t.mcand[p] ∧
          (∀ r c, r < s.size.toNat → c < s.size.toNat →
            cellAt .empty t.mcand[p] r c =
              if cellAt .empty s.mtype r c = .data ∧ maskPredicate p.val r c = true
              then invertModule (cellAt .empty s.mpre r c) else cellAt .empty s.mpre r c) ∧
          t.pen[p] = penaltyOf s.size.toNat t.mcand[p]) ∧
    (s.valid.getLsbD 6 = false → exec .maskeval s = .next (s.withError 5 0x36000000))

/-- MASKSEL with EVALD set completes and changes only MASKSEL and VALID (SELD set, bit 9 cleared): MASKSEL is the least p whose
total PEN[p][4] is at most every other total. Without EVALD it raises SequenceError and writes nothing. -/
def Obligations.MaskselCompletes : Prop :=
  ∀ s : State, s.halt = false →
    (s.valid.getLsbD 7 = true →
      ∃ (p : Fin 8) (t : State), exec .masksel s = .next t ∧
        t = { s.withDone with
          masksel := BitVec.ofNat 3 p.val, valid := (s.valid &&& 0xCFF) ||| 0x100, held := t.held } ∧
        (∀ q : Fin 8, s.pen[p].total.toNat ≤ s.pen[q].total.toNat) ∧
        ∀ q : Fin 8, q < p → s.pen[p].total.toNat < s.pen[q].total.toNat) ∧
    (s.valid.getLsbD 7 = false → exec .masksel s = .next (s.withError 5 0x37000000))

/-- INFOSTAMP with SELD set completes and changes only MFINAL, FORMATINFO, VERSIONINFO and VALID (STAMPED set). FORMATINFO is the
code F of LEVEL and MASKSEL; VERSIONINFO is present, with the version's code V, exactly for VERSION ≥ 7. For a version 1 to 40
and a square selected candidate, MFINAL has bit 14-k of F on cell k of both strips, for VERSION ≥ 7 bit i of V on cell i of both
version blocks, and the candidate's value on every other cell. Without SELD it raises SequenceError and writes nothing. -/
def Obligations.InfostampCompletes : Prop :=
  ∀ s : State, s.halt = false →
    (s.valid.getLsbD 8 = true →
      let f := fmtcode s.level s.masksel
      let v := vercode s.version
      let size := 4 * s.version.toNat + 17
      let cand := s.mcand[s.masksel.toNat]'(s.masksel.isLt)
      ∃ t, exec .infostamp s = .next t ∧
        t = { s.withDone with
          mfinal := t.mfinal, formatinfo := f, versioninfo := if 7 ≤ s.version.toNat then some v else none,
          valid := s.valid ||| 0x200, held := t.held } ∧
        (1 ≤ s.version.toNat → s.version.toNat ≤ 40 → SquareGrid size cand →
          (∀ k : Fin 15,
            cellAt .empty t.mfinal (fmt1Cells.getD k.val (0, 0)).1 (fmt1Cells.getD k.val (0, 0)).2
              = moduleOfBit (f.getLsbD (14 - k.val)) ∧
            cellAt .empty t.mfinal ((fmt2Cells size).getD k.val (0, 0)).1 ((fmt2Cells size).getD k.val (0, 0)).2
              = moduleOfBit (f.getLsbD (14 - k.val))) ∧
          (7 ≤ s.version.toNat → ∀ i : Fin 18,
            cellAt .empty t.mfinal (i.val / 3) (size - 11 + i.val % 3) = moduleOfBit (v.getLsbD i.val) ∧
            cellAt .empty t.mfinal (size - 11 + i.val % 3) (i.val / 3) = moduleOfBit (v.getLsbD i.val)) ∧
          ∀ r c, (r, c) ∉ fmt1Cells → (r, c) ∉ fmt2Cells size →
            (7 ≤ s.version.toNat → (r, c) ∉ versionCells size) →
            cellAt .empty t.mfinal r c = cellAt .empty cand r c)) ∧
    (s.valid.getLsbD 8 = false → exec .infostamp s = .next (s.withError 5 0x38000000))

/-- FMTENC and VERENC complete from every state that is not halted, writing RES0 only: the format code of the level code and
mask; for a version 7 to 40 bit 31 and the version code, else 0. The codes carry their data in the high bits and, with the
format mask removed, have remainder 0. -/
def Obligations.BchEncodersComplete : Prop :=
  (∀ (level : BitVec 2) (mask : BitVec 3) (s : State), s.halt = false →
      exec (.fmtenc level mask) s = .next { s.withDone with res0 := (fmtcode level mask).setWidth 32 }) ∧
    (∀ (v : BitVec 6) (s : State), s.halt = false →
      exec (.verenc v) s = .next { s.withDone with
        res0 := if 7 ≤ v.toNat ∧ v.toNat ≤ 40 then 0x80000000 ||| (vercode v).setWidth 32 else 0 }) ∧
    (∀ (level : BitVec 2) (mask : BitVec 3),
      (fmtcode level mask ^^^ 0x5412).extractLsb' 10 5 = level ++ mask ∧ rem15 (fmtcode level mask ^^^ 0x5412) = 0) ∧
    ∀ v : BitVec 6, (vercode v).extractLsb' 12 6 = v ∧ rem18 (vercode v) = 0

/-- FMTDEC and VERDEC, not halted: where the decoder finds a codeword they complete with its data in RES0, the number of
corrected bits in RES1 and the corrected word (for FMTDEC with the format mask on) in RES2; where it fails they raise
BCHUncorrectable with RES0 = 0, RES1 = -1, RES2 = 0. Nothing else changes. -/
def Obligations.BchDecodersResult : Prop :=
  (∀ (raw : BitVec 15) (s : State), s.halt = false →
      (∀ c, fmtdecode raw = some c →
        exec (.fmtdec raw) s = .next { s.withDone with
          res0 := (c.word.extractLsb' 10 5).setWidth 32, res1 := BitVec.ofNat 32 c.errors,
          res2 := (c.word ^^^ 0x5412).setWidth 32 }) ∧
      (fmtdecode raw = none →
        exec (.fmtdec raw) s = .next { s.withError 2 (encode (.fmtdec raw)) with
          res0 := 0, res1 := 0xFFFFFFFF, res2 := 0 })) ∧
    ∀ (raw : BitVec 18) (s : State), s.halt = false →
      (∀ c, verdecode s.rom raw = some c →
        exec (.verdec raw) s = .next { s.withDone with
          res0 := (c.word.extractLsb' 12 6).setWidth 32, res1 := BitVec.ofNat 32 c.errors,
          res2 := c.word.setWidth 32 }) ∧
      (verdecode s.rom raw = none →
        exec (.verdec raw) s = .next { s.withError 2 (encode (.verdec raw)) with
          res0 := 0, res1 := 0xFFFFFFFF, res2 := 0 })

/-! ### The functions behind the commands -/

/-- The tables and the field: EXP starts at 1 and each entry is the shift-and-reduce of the one before, LOG inverts it on the
non-zero bytes and holds 0 at 0 (Log 9: R132's inference, which U2 leaves open); gfmul is commutative, associative, distributes
over XOR, has unit 1 and the stated inverses, doubles as the shift-and-reduce step, and equals the carry-less product reduced
modulo 0x11D. -/
def Obligations.FieldLaws : Prop :=
  (gfExp 0 = 1 ∧ (∀ i < 255, gfExp (i + 1) = gfDouble (gfExp i)) ∧ gfExp 255 = gfExp 0) ∧
    (∀ i < 255, gfLog (gfExp i) = i) ∧ gfLog 0 = 0 ∧ (∀ a : Byte, a ≠ 0 → gfLog a ≤ 254 ∧ gfExp (gfLog a) = a) ∧
    ∀ a b c : Byte,
      gfmul a b = gfmul b a ∧ gfmul (gfmul a b) c = gfmul a (gfmul b c) ∧ gfmul a 1 = a ∧
      gfmul a (b ^^^ c) = gfmul a b ^^^ gfmul a c ∧
      (a ≠ 0 → (gfmul a b = 1 ↔ b = gfExp ((255 - gfLog a) % 255))) ∧
      gfmul a 2 = gfDouble a ∧ gfmul a b = reduceField (carrylessProduct a b)

/-- The generator polynomial for n ≤ 255 has n + 1 coefficients, leading coefficient 1, and its roots are exactly the powers
0 to n-1 of the primitive element; those for n = 1, 2, 3, 7 and 10 are the ones the spec lists. -/
def Obligations.GeneratorRoots : Prop :=
  (genpoly 1 = [1, 1] ∧ genpoly 2 = [1, 3, 2] ∧ genpoly 3 = [1, 7, 14, 8] ∧
    genpoly 7 = [1, 127, 122, 154, 164, 11, 68, 117] ∧
    genpoly 10 = [1, 216, 194, 159, 111, 199, 94, 95, 113, 157, 193]) ∧
  ∀ n ≤ 255, (genpoly n).length = n + 1 ∧ (genpoly n).head? = some 1 ∧
    ∀ x : Byte, evalHigh x (genpoly n) = 0 ↔ ∃ i < n, x = gfExp i

/-- Check codewords: there are n of them, data followed by its check codewords has all n syndromes 0, rsecc is linear, leading
zero data codewords do not change it, no data gives n zeros, and n = 0 gives none. -/
def Obligations.CheckCodewords : Prop :=
  ∀ n ≤ 255,
    (∀ data, (rsecc data n).length = n ∧ ∀ x ∈ syndromes (data ++ rsecc data n) n, x = 0) ∧
    (∀ a b, a.length = b.length →
      rsecc (List.zipWith (· ^^^ ·) a b) n = List.zipWith (· ^^^ ·) (rsecc a n) (rsecc b n)) ∧
    (∀ data, rsecc (0 :: data) n = rsecc data n) ∧ rsecc [] n = List.replicate n 0 ∧ ∀ data, rsecc data 0 = []

/-- A block of length N, n ≤ N ≤ 255, has all n syndromes 0 exactly when it is data followed by its n check codewords. -/
def Obligations.CodewordIffSyndromesZero : Prop :=
  ∀ (r : List Byte) (n : Nat), n ≤ r.length → r.length ≤ 255 →
    ((∀ x ∈ syndromes r n, x = 0) ↔ ∃ d, d.length = r.length - n ∧ r = d ++ rsecc d n)

/-- The corrector is sound: what it returns for a block is a word of the code of the same length, at the reported distance from
the block, and that distance is at most half the number of check codewords. -/
def Obligations.CorrectorSound : Prop :=
  ∀ (r c : List Byte) (n e : Nat), n ≤ r.length → r.length ≤ 255 → rscorrect r n = some (c, e) →
    c.length = r.length ∧ (∀ x ∈ syndromes c n, x = 0) ∧ e = distance r c ∧ 2 * e ≤ n

/-- The corrector is complete: whenever a word of the code lies within half the number of check codewords of the block, the
corrector returns it and its distance. -/
def Obligations.CorrectorComplete : Prop :=
  ∀ (r c : List Byte) (n : Nat), n ≤ r.length → r.length ≤ 255 → c.length = r.length →
    (∀ x ∈ syndromes c n, x = 0) → 2 * distance r c ≤ n → rscorrect r n = some (c, distance r c)

/-- Mode and version: the class of a byte is as tabled, digits first; a non-empty text is numeric if all its bytes are, else
alphanumeric if none has class byte, else byte (kanji is stored as byte), an empty one has the open parameter's mode; the
minimum version is the least of 1..40 whose capacity holds the text, and absent exactly when none does. -/
def Obligations.ModeAndMinimumVersion : Prop :=
  (∀ b : Byte, (charClass b = .numeric ↔ 0x30 ≤ b.toNat ∧ b.toNat ≤ 0x39) ∧
      (charClass b = .alphanumeric ↔ (0x41 ≤ b.toNat ∧ b.toNat ≤ 0x5A) ∨
        b.toNat ∈ [0x20, 0x24, 0x25, 0x2A, 0x2B, 0x2D, 0x2E, 0x2F, 0x3A])) ∧
    (∀ text : List Byte, text ≠ [] →
      downgrade (dominantMode text) =
        if ∀ b ∈ text, charClass b = .numeric then .numeric
        else if ∀ b ∈ text, charClass b ≠ .byte then .alphanumeric else .byte) ∧
    downgrade (dominantMode []) = emptyMode Config.emptyTextMode ∧
    ∀ (rom : Rom) (level : BitVec 2) (m : Mode) (len : Nat),
      (∀ v, minimumVersion rom level m len = some v ↔
        1 ≤ v ∧ v ≤ 40 ∧ 4 + ccbits m v + databits m len ≤ capOf rom v level ∧
          ∀ u, 1 ≤ u → u < v → capOf rom u level < 4 + ccbits m u + databits m len) ∧
      (minimumVersion rom level m len = none ↔
        ∀ v, 1 ≤ v → v ≤ 40 → capOf rom v level < 4 + ccbits m v + databits m len)

/-- The packed stream. A number below 2^n reads back from its n bits, first bit most significant. Three digits are packed as
their number in 10 bits, two left over in 7, one in 4; a pair of alphanumeric characters as 45·a + b in 11 bits, one left over in
6, with the values of the spec's table; a byte as its 8 bits. So the data bits number 10 per three digits and 4 or 7 for a rest,
11 per pair and 6 for a rest, 8 per byte, the count ANALYZE uses. For a capacity that is a multiple of 8 and holds the used bits,
the stream is the used bits, then up to four terminator zeros, then zeros to the byte boundary, then pad bytes 0xEC and 0x11 in
turn from 0xEC on, of exactly the capacity's length; a codeword cut from a stream has its first bit most significant. -/
def Obligations.PackedStreamShape : Prop :=
  (∀ n v : Nat, (bitsMsb n v).length = n ∧ (v < 2 ^ n → natOfBits (bitsMsb n v) = v)) ∧
    (∀ text : List Byte, (∀ b ∈ text, 0x30 ≤ b.toNat ∧ b.toNat ≤ 0x39) →
      let digit := fun i => (text.getD i 0).toNat - 0x30
      let field := fun start width => natOfBits (((dataStream .numeric text).drop start).take width)
      let k := text.length / 3
      (∀ i < k, field (10 * i) 10 = 100 * digit (3 * i) + 10 * digit (3 * i + 1) + digit (3 * i + 2)) ∧
      (text.length % 3 = 2 → field (10 * k) 7 = 10 * digit (3 * k) + digit (3 * k + 1)) ∧
      (text.length % 3 = 1 → field (10 * k) 4 = digit (3 * k))) ∧
    ([0x30, 0x31, 0x32, 0x33, 0x34, 0x35, 0x36, 0x37, 0x38, 0x39, 0x41, 0x42, 0x43, 0x44, 0x45, 0x46, 0x47, 0x48, 0x49, 0x4A,
      0x4B, 0x4C, 0x4D, 0x4E, 0x4F, 0x50, 0x51, 0x52, 0x53, 0x54, 0x55, 0x56, 0x57, 0x58, 0x59, 0x5A, 0x20, 0x24, 0x25, 0x2A,
      0x2B, 0x2D, 0x2E, 0x2F, 0x3A].map alphanumericValue = List.range 45) ∧
    (∀ text : List Byte, (∀ b ∈ text, charClass b ≠ .byte) →
      let value := fun i => alphanumericValue (text.getD i 0)
      let field := fun start width => natOfBits (((dataStream .alphanumeric text).drop start).take width)
      let k := text.length / 2
      (∀ i < k, field (11 * i) 11 = 45 * value (2 * i) + value (2 * i + 1)) ∧
      (text.length % 2 = 1 → field (11 * k) 6 = value (2 * k))) ∧
    (∀ text : List Byte, ∀ i < text.length,
      natOfBits (((dataStream .byte text).drop (8 * i)).take 8) = (text.getD i 0).toNat) ∧
    (∀ text : List Byte,
      (dataStream .numeric text).length =
        10 * (text.length / 3) + (if text.length % 3 = 0 then 0 else if text.length % 3 = 1 then 4 else 7) ∧
      (dataStream .alphanumeric text).length = 11 * (text.length / 2) + 6 * (text.length % 2) ∧
      (dataStream .byte text).length = 8 * text.length ∧
      ∀ m, databits m text.length = (dataStream m text).length) ∧
    (∀ (cap : Nat) (used : List Bool), cap % 8 = 0 → used.length ≤ cap →
      let z := min 4 (cap - used.length)
      let p := (8 - (used.length + z) % 8) % 8
      packedStream cap used = used ++ List.replicate (z + p) false ++
          (List.range ((cap - used.length - z - p) / 8)).flatMap
            (fun i => bitsMsb 8 (if i % 2 = 0 then 0xEC else 0x11)) ∧
        (packedStream cap used).length = cap) ∧
    ∀ (n : Nat) (bits : List Bool), 8 * n ≤ bits.length →
      (sliceCodewords n bits).length = n ∧
        ∀ i < n, ∀ j < 8, ((sliceCodewords n bits).getD i 0).getLsbD (7 - j) = bits.getD (8 * i + j) false

/-- The scan order of a version's matrix, whatever its alignment table, lists every data cell of the matrix exactly once and no
other cell; placing as many bits as there are data cells puts bit i on cell i of the order and leaves every other cell as it
was. -/
def Obligations.ScanCoversDataCells : Prop :=
  ∀ (v : Nat) (coords : List Nat), 1 ≤ v → v ≤ 40 →
    let size := 4 * v + 17
    let order := scanOrder (typeGrid v coords) size
    order.Nodup ∧ order.length = countData (typeGrid v coords) ∧
    (∀ r c, (r, c) ∈ order ↔ r < size ∧ c < size ∧ cellAt .empty (typeGrid v coords) r c = .data) ∧
    ∀ bits : List Bool, bits.length = order.length →
      let m := placeBits (functionGrid v coords) order bits
      (∀ i < order.length, cellAt .empty m (order.getD i (0, 0)).1 (order.getD i (0, 0)).2
        = moduleOfBit (bits.getD i false)) ∧
      ∀ r c, (r, c) ∉ order → cellAt .empty m r c = cellAt .empty (functionGrid v coords) r c

/-- The functional patterns. On every cell that no alignment pattern touches: the three finders, dark but for the ring at
distance 2 from the centre; the separators around them, light; the timing cells of row 6 and column 6 between them, dark at
even index. On every cell: the reserved cells of both format strips and, from version 7 on and only from there, of both version
blocks, light, and the dark module. The alignment centres are all pairs of coordinates but the three at the finders; with
well-formed coordinates each pattern is dark but for the ring at distance 1 from its centre, also where it crosses a timing
line. -/
def Obligations.FunctionalPatterns : Prop :=
  ∀ (v : Nat) (coords : List Nat), 1 ≤ v → v ≤ 40 →
    let size := 4 * v + 17
    let cell := functionCell v coords
    (∀ r c : Nat, r < size → c < size →
      (∀ p ∈ alignmentCentres size coords, alignmentAt p.1 p.2 r c = none) →
      (∀ p ∈ [(0, 0), (0, size - 7), (size - 7, 0)], p.1 ≤ r → r ≤ p.1 + 6 → p.2 ≤ c → c ≤ p.2 + 6 →
        cell r c = (if max ((r : Int) - (p.1 + 3)).natAbs ((c : Int) - (p.2 + 3)).natAbs = 2 then .light else .dark,
          .finder)) ∧
      ((r = 7 ∧ (c ≤ 7 ∨ size - 8 ≤ c)) ∨ (c = 7 ∧ (r ≤ 7 ∨ size - 8 ≤ r)) ∨ (c = size - 8 ∧ r ≤ 7) ∨
        (r = size - 8 ∧ c ≤ 7) → cell r c = (.light, .separator)) ∧
      (r = 6 → 8 ≤ c → c ≤ size - 9 → cell r c = (if c % 2 = 0 then .dark else .light, .timing)) ∧
      (c = 6 → 8 ≤ r → r ≤ size - 9 → cell r c = (if r % 2 = 0 then .dark else .light, .timing))) ∧
    (∀ c, (c ≤ 8 ∧ c ≠ 6) ∨ (size - 8 ≤ c ∧ c < size) → cell 8 c = (.light, .format)) ∧
    (∀ r, (r ≤ 8 ∧ r ≠ 6) ∨ (size - 7 ≤ r ∧ r < size) → cell r 8 = (.light, .format)) ∧
    cell (size - 8) 8 = (.dark, .format) ∧
    (7 ≤ v → ∀ i < 18, cell (i / 3) (size - 11 + i % 3) = (.light, .version) ∧
      cell (size - 11 + i % 3) (i / 3) = (.light, .version)) ∧
    (v < 7 → ∀ r c, (cell r c).2 ≠ .version) ∧
    (∀ p, p ∈ alignmentCentres size coords ↔ p.1 ∈ coords ∧ p.2 ∈ coords ∧
      p ≠ (6, 6) ∧ p ≠ (6, size - 7) ∧ p ≠ (size - 7, 6)) ∧
    (AlignPremise v coords → ∀ p ∈ alignmentCentres size coords, ∀ r c : Nat,
      max ((r : Int) - p.1).natAbs ((c : Int) - p.2).natAbs ≤ 2 →
      cell r c = (if max ((r : Int) - p.1).natAbs ((c : Int) - p.2).natAbs = 1 then .light else .dark, .alignment))

/-- The penalty scores against their plain forms: N1 is the sum of L - 2 over every maximal run of length L ≥ 5 of every row and
column, N2 is 3 for every 2×2 block of four light or four dark cells, N3 is 40 for every window of seven cells equal to dark,
light, dark, dark, dark, light, dark, N4 is 10 times the floor of |20·dark - 10·size²| / size²
and at most 100; for sizes up to 177 no register overflows and the total is the exact sum of the four. -/
def Obligations.PenaltyScores : Prop :=
  ∀ (size : Nat) (g : Grid Module),
    penaltyN1 size g = ((gridLines size g).map runPenalty).sum ∧
    penaltyN2 size g = 3 * ((List.range size).flatMap fun r => (List.range size).map fun c => (r, c)).countP (fun p =>
      p.1 + 2 ≤ size ∧ p.2 + 2 ≤ size ∧ (∀ i < 2, ∀ j < 2, cellAt .empty g (p.1 + i) (p.2 + j) = .light) ∨
      p.1 + 2 ≤ size ∧ p.2 + 2 ≤ size ∧ (∀ i < 2, ∀ j < 2, cellAt .empty g (p.1 + i) (p.2 + j) = .dark)) ∧
    finderSequence = [.dark, .light, .dark, .dark, .dark, .light, .dark] ∧
    penaltyN3 size g = 40 * ((gridLines size g).map windowCount).sum ∧
    darkCount size g ≤ size * size ∧
    penaltyN4 size g
      = 10 * (((20 * darkCount size g : Int) - 10 * (size * size)).natAbs / (size * size)) ∧
    penaltyN4 size g ≤ 100 ∧
    (size ≤ 177 →
      (penaltyOf size g).n1.toNat = penaltyN1 size g ∧ (penaltyOf size g).n2.toNat = penaltyN2 size g ∧
      (penaltyOf size g).n3.toNat = penaltyN3 size g ∧ (penaltyOf size g).n4.toNat = penaltyN4 size g ∧
      (penaltyOf size g).dark.toNat = darkCount size g ∧
      (penaltyOf size g).total.toNat = penaltyN1 size g + penaltyN2 size g + penaltyN3 size g + penaltyN4 size g)

/-- The BCH decoders. The format decoder returns exactly the codeword within three bit flips of the received word, the mask
removed, with the number of flips. So does the correction step of the version decoder; the version decoder itself returns that
codeword exactly if moreover its version is in 7..40 and its recomputed code equals the reference table's entry. -/
def Obligations.BchDecodersFindNearest : Prop :=
  (∀ (raw : BitVec 15) (c : Correction 15),
      fmtdecode raw = some c ↔ rem15 c.word = 0 ∧ c.errors = weight (c.word ^^^ raw ^^^ 0x5412) ∧ c.errors ≤ 3) ∧
    ∀ (raw : BitVec 18) (c : Correction 18),
      (verCorrect raw = some c ↔ rem18 c.word = 0 ∧ c.errors = weight (c.word ^^^ raw) ∧ c.errors ≤ 3) ∧
      ∀ rom : Rom,
        verdecode rom raw = some c ↔
          (rem18 c.word = 0 ∧ c.errors = weight (c.word ^^^ raw) ∧ c.errors ≤ 3) ∧
          7 ≤ (c.word.extractLsb' 12 6).toNat ∧ (c.word.extractLsb' 12 6).toNat ≤ 40 ∧
          vercode (c.word.extractLsb' 12 6) = rom.verref.getD ((c.word.extractLsb' 12 6).toNat - 7) 0

/-- Distances and injected errors: two different format codes differ in at least 7 bits and two different version codes in at
least 8; a format code with up to three bits flipped decodes to its data with that number of errors; a version code of a
version 7 to 40 with up to three bits flipped decodes to it with that number of errors and with four flipped does not decode,
for every version table that holds the version codes. -/
def Obligations.BchInjectedErrors : Prop :=
  (∀ d e : BitVec 5, d ≠ e → 7 ≤ weight (fmtCodeword d ^^^ fmtCodeword e)) ∧
    (∀ v u : BitVec 6, v ≠ u → 8 ≤ weight (vercode v ^^^ vercode u)) ∧
    (∀ (level : BitVec 2) (mask : BitVec 3) (e : BitVec 15), weight e ≤ 3 →
      fmtdecode (fmtcode level mask ^^^ e) = some ⟨fmtCodeword (level ++ mask), weight e⟩) ∧
    ∀ (rom : Rom) (v : BitVec 6) (e : BitVec 18), VerrefPremise rom → 7 ≤ v.toNat → v.toNat ≤ 40 →
      (weight e ≤ 3 → verdecode rom (vercode v ^^^ e) = some ⟨vercode v, weight e⟩) ∧
      (weight e = 4 → verdecode rom (vercode v ^^^ e) = none)

/-- The final matrix is complete: in every state with honest valid bits, with STAMPED set and tables that fit at the current
version and level, every cell of MFINAL inside the size × size matrix is light or dark. -/
def Obligations.FinalMatrixComplete : Prop :=
  ∀ s : State, ControlInv s → Coherent s → s.valid.getLsbD 9 = true → TablesFit s →
    SquareGrid (4 * s.version.toNat + 17) s.mfinal ∧
    ∀ r c, r < 4 * s.version.toNat + 17 → c < 4 * s.version.toNat + 17 →
      cellAt .empty s.mfinal r c = .light ∨ cellAt .empty s.mfinal r c = .dark

/-- The default tables (Log 3) are well-formed: R322 (a) to (e) and R323 (a) to (c) hold of them for every version 1 to 40 and
every level; what fits a version fits every later one; the longest texts that fit are 7089 digits, 4296 alphanumeric characters
and 2953 bytes, each fitting 40-L; the versions have the listed numbers of data cells; the codewords of a plan, data and check
together, are the same number at all four levels of a version; the buffers of the stream and the codewords have 23648, 2956 and
3706 elements. -/
def Obligations.DefaultTablesMeetPremises : Prop :=
  TablesWellFormed defaultRom ∧ MonotoneFit defaultRom ∧
    (∀ v, 1 ≤ v → v ≤ 40 → ∀ lc len, (Fits defaultRom v lc .numeric len → len ≤ 7089) ∧
      (Fits defaultRom v lc .alphanumeric len → len ≤ 4296) ∧ (Fits defaultRom v lc .byte len → len ≤ 2953)) ∧
    Fits defaultRom 40 0b01 .numeric 7089 ∧ Fits defaultRom 40 0b01 .alphanumeric 4296 ∧ Fits defaultRom 40 0b01 .byte 2953 ∧
    (List.range' 1 40).map (dataCells defaultRom) =
      [208, 359, 567, 807, 1079, 1383, 1568, 1936, 2336, 2768, 3232, 3728, 4256, 4651, 5243, 5867, 6523, 7211, 7931, 8683] ++
      [9252, 10068, 10916, 11796, 12708, 13652, 14628, 15371, 16411, 17483, 18587, 19723, 20891, 22091, 23008, 24272, 25568,
        26896, 28256, 29648] ∧
    (∀ v, 1 ≤ v → v ≤ 40 → ∀ lc, totalCodewords defaultRom v lc = totalCodewords defaultRom v 0) ∧
    bitsSize defaultRom = 23648 ∧ dcwSize defaultRom = 2956 ∧ icwSize defaultRom = 3706
end

