-- ==== Sys2Proof/Laws/State.lean ====
section
/-! SUPPORT. Every field of the state after every named update: one lemma a field and update, true by definition, so that no
proof unfolds a record update. -/

namespace Sys2Proof.Machine

/-! ### clearStages -/

@[simp] theorem clearStages_pending (lo : Nat) (s : State) : (clearStages lo s).pending = s.pending := rfl
@[simp] theorem clearStages_hostData (lo : Nat) (s : State) : (clearStages lo s).hostData = s.hostData := rfl
@[simp] theorem clearStages_freeCtr (lo : Nat) (s : State) : (clearStages lo s).freeCtr = s.freeCtr := rfl
@[simp] theorem clearStages_memEpoch (lo : Nat) (s : State) : (clearStages lo s).memEpoch = s.memEpoch := rfl
@[simp] theorem clearStages_rom (lo : Nat) (s : State) : (clearStages lo s).rom = s.rom := rfl
@[simp] theorem clearStages_done (lo : Nat) (s : State) : (clearStages lo s).done = s.done := rfl
@[simp] theorem clearStages_err (lo : Nat) (s : State) : (clearStages lo s).err = s.err := rfl
@[simp] theorem clearStages_halt (lo : Nat) (s : State) : (clearStages lo s).halt = s.halt := rfl
@[simp] theorem clearStages_notice (lo : Nat) (s : State) : (clearStages lo s).notice = s.notice := rfl
@[simp] theorem clearStages_errcode (lo : Nat) (s : State) : (clearStages lo s).errcode = s.errcode := rfl
@[simp] theorem clearStages_errinfo (lo : Nat) (s : State) : (clearStages lo s).errinfo = s.errinfo := rfl
@[simp] theorem clearStages_valid (lo : Nat) (s : State) : (clearStages lo s).valid = s.valid &&& ~~~stagesFrom lo := rfl
@[simp] theorem clearStages_held (lo : Nat) (s : State) : (clearStages lo s).held = s.held &&& ~~~stagesFrom lo := rfl
@[simp] theorem clearStages_version (lo : Nat) (s : State) : (clearStages lo s).version = s.version := rfl
@[simp] theorem clearStages_level (lo : Nat) (s : State) : (clearStages lo s).level = s.level := rfl
@[simp] theorem clearStages_len (lo : Nat) (s : State) : (clearStages lo s).len = s.len := rfl
@[simp] theorem clearStages_mode (lo : Nat) (s : State) : (clearStages lo s).mode = s.mode := rfl
@[simp] theorem clearStages_minver (lo : Nat) (s : State) : (clearStages lo s).minver = s.minver := rfl
@[simp] theorem clearStages_anvalid (lo : Nat) (s : State) : (clearStages lo s).anvalid = s.anvalid := rfl
@[simp] theorem clearStages_usedbits (lo : Nat) (s : State) : (clearStages lo s).usedbits = s.usedbits := rfl
@[simp] theorem clearStages_capbits (lo : Nat) (s : State) : (clearStages lo s).capbits = s.capbits := rfl
@[simp] theorem clearStages_ndcw (lo : Nat) (s : State) : (clearStages lo s).ndcw = s.ndcw := rfl
@[simp] theorem clearStages_nblk (lo : Nat) (s : State) : (clearStages lo s).nblk = s.nblk := rfl
@[simp] theorem clearStages_nec (lo : Nat) (s : State) : (clearStages lo s).nec = s.nec := rfl
@[simp] theorem clearStages_nicw (lo : Nat) (s : State) : (clearStages lo s).nicw = s.nicw := rfl
@[simp] theorem clearStages_size (lo : Nat) (s : State) : (clearStages lo s).size = s.size := rfl
@[simp] theorem clearStages_ndata (lo : Nat) (s : State) : (clearStages lo s).ndata = s.ndata := rfl
@[simp] theorem clearStages_masksel (lo : Nat) (s : State) : (clearStages lo s).masksel = s.masksel := rfl
@[simp] theorem clearStages_formatinfo (lo : Nat) (s : State) : (clearStages lo s).formatinfo = s.formatinfo := rfl
@[simp] theorem clearStages_versioninfo (lo : Nat) (s : State) : (clearStages lo s).versioninfo = s.versioninfo := rfl
@[simp] theorem clearStages_res0 (lo : Nat) (s : State) : (clearStages lo s).res0 = s.res0 := rfl
@[simp] theorem clearStages_res1 (lo : Nat) (s : State) : (clearStages lo s).res1 = s.res1 := rfl
@[simp] theorem clearStages_res2 (lo : Nat) (s : State) : (clearStages lo s).res2 = s.res2 := rfl
@[simp] theorem clearStages_pen (lo : Nat) (s : State) : (clearStages lo s).pen = s.pen := rfl
@[simp] theorem clearStages_mem (lo : Nat) (s : State) : (clearStages lo s).mem = s.mem := rfl
@[simp] theorem clearStages_bits (lo : Nat) (s : State) : (clearStages lo s).bits = s.bits := rfl
@[simp] theorem clearStages_dcw (lo : Nat) (s : State) : (clearStages lo s).dcw = s.dcw := rfl
@[simp] theorem clearStages_dblk (lo : Nat) (s : State) : (clearStages lo s).dblk = s.dblk := rfl
@[simp] theorem clearStages_eblk (lo : Nat) (s : State) : (clearStages lo s).eblk = s.eblk := rfl
@[simp] theorem clearStages_icw (lo : Nat) (s : State) : (clearStages lo s).icw = s.icw := rfl
@[simp] theorem clearStages_mtype (lo : Nat) (s : State) : (clearStages lo s).mtype = s.mtype := rfl
@[simp] theorem clearStages_mfunc (lo : Nat) (s : State) : (clearStages lo s).mfunc = s.mfunc := rfl
@[simp] theorem clearStages_mpre (lo : Nat) (s : State) : (clearStages lo s).mpre = s.mpre := rfl
@[simp] theorem clearStages_mcand (lo : Nat) (s : State) : (clearStages lo s).mcand = s.mcand := rfl
@[simp] theorem clearStages_mfinal (lo : Nat) (s : State) : (clearStages lo s).mfinal = s.mfinal := rfl
@[simp] theorem clearStages_gen (lo : Nat) (s : State) : (clearStages lo s).gen = s.gen := rfl
@[simp] theorem clearStages_syn (lo : Nat) (s : State) : (clearStages lo s).syn = s.syn := rfl

/-! ### markValid -/

@[simp] theorem markValid_pending (k : Nat) (s : State) : (markValid k s).pending = s.pending := rfl
@[simp] theorem markValid_hostData (k : Nat) (s : State) : (markValid k s).hostData = s.hostData := rfl
@[simp] theorem markValid_freeCtr (k : Nat) (s : State) : (markValid k s).freeCtr = s.freeCtr := rfl
@[simp] theorem markValid_memEpoch (k : Nat) (s : State) : (markValid k s).memEpoch = s.memEpoch := rfl
@[simp] theorem markValid_rom (k : Nat) (s : State) : (markValid k s).rom = s.rom := rfl
@[simp] theorem markValid_done (k : Nat) (s : State) : (markValid k s).done = s.done := rfl
@[simp] theorem markValid_err (k : Nat) (s : State) : (markValid k s).err = s.err := rfl
@[simp] theorem markValid_halt (k : Nat) (s : State) : (markValid k s).halt = s.halt := rfl
@[simp] theorem markValid_notice (k : Nat) (s : State) : (markValid k s).notice = s.notice := rfl
@[simp] theorem markValid_errcode (k : Nat) (s : State) : (markValid k s).errcode = s.errcode := rfl
@[simp] theorem markValid_errinfo (k : Nat) (s : State) : (markValid k s).errinfo = s.errinfo := rfl
@[simp] theorem markValid_valid (k : Nat) (s : State) : (markValid k s).valid = s.valid ||| validBit k := rfl
@[simp] theorem markValid_held (k : Nat) (s : State) : (markValid k s).held = s.held ||| validBit k := rfl
@[simp] theorem markValid_version (k : Nat) (s : State) : (markValid k s).version = s.version := rfl
@[simp] theorem markValid_level (k : Nat) (s : State) : (markValid k s).level = s.level := rfl
@[simp] theorem markValid_len (k : Nat) (s : State) : (markValid k s).len = s.len := rfl
@[simp] theorem markValid_mode (k : Nat) (s : State) : (markValid k s).mode = s.mode := rfl
@[simp] theorem markValid_minver (k : Nat) (s : State) : (markValid k s).minver = s.minver := rfl
@[simp] theorem markValid_anvalid (k : Nat) (s : State) : (markValid k s).anvalid = s.anvalid := rfl
@[simp] theorem markValid_usedbits (k : Nat) (s : State) : (markValid k s).usedbits = s.usedbits := rfl
@[simp] theorem markValid_capbits (k : Nat) (s : State) : (markValid k s).capbits = s.capbits := rfl
@[simp] theorem markValid_ndcw (k : Nat) (s : State) : (markValid k s).ndcw = s.ndcw := rfl
@[simp] theorem markValid_nblk (k : Nat) (s : State) : (markValid k s).nblk = s.nblk := rfl
@[simp] theorem markValid_nec (k : Nat) (s : State) : (markValid k s).nec = s.nec := rfl
@[simp] theorem markValid_nicw (k : Nat) (s : State) : (markValid k s).nicw = s.nicw := rfl
@[simp] theorem markValid_size (k : Nat) (s : State) : (markValid k s).size = s.size := rfl
@[simp] theorem markValid_ndata (k : Nat) (s : State) : (markValid k s).ndata = s.ndata := rfl
@[simp] theorem markValid_masksel (k : Nat) (s : State) : (markValid k s).masksel = s.masksel := rfl
@[simp] theorem markValid_formatinfo (k : Nat) (s : State) : (markValid k s).formatinfo = s.formatinfo := rfl
@[simp] theorem markValid_versioninfo (k : Nat) (s : State) : (markValid k s).versioninfo = s.versioninfo := rfl
@[simp] theorem markValid_res0 (k : Nat) (s : State) : (markValid k s).res0 = s.res0 := rfl
@[simp] theorem markValid_res1 (k : Nat) (s : State) : (markValid k s).res1 = s.res1 := rfl
@[simp] theorem markValid_res2 (k : Nat) (s : State) : (markValid k s).res2 = s.res2 := rfl
@[simp] theorem markValid_pen (k : Nat) (s : State) : (markValid k s).pen = s.pen := rfl
@[simp] theorem markValid_mem (k : Nat) (s : State) : (markValid k s).mem = s.mem := rfl
@[simp] theorem markValid_bits (k : Nat) (s : State) : (markValid k s).bits = s.bits := rfl
@[simp] theorem markValid_dcw (k : Nat) (s : State) : (markValid k s).dcw = s.dcw := rfl
@[simp] theorem markValid_dblk (k : Nat) (s : State) : (markValid k s).dblk = s.dblk := rfl
@[simp] theorem markValid_eblk (k : Nat) (s : State) : (markValid k s).eblk = s.eblk := rfl
@[simp] theorem markValid_icw (k : Nat) (s : State) : (markValid k s).icw = s.icw := rfl
@[simp] theorem markValid_mtype (k : Nat) (s : State) : (markValid k s).mtype = s.mtype := rfl
@[simp] theorem markValid_mfunc (k : Nat) (s : State) : (markValid k s).mfunc = s.mfunc := rfl
@[simp] theorem markValid_mpre (k : Nat) (s : State) : (markValid k s).mpre = s.mpre := rfl
@[simp] theorem markValid_mcand (k : Nat) (s : State) : (markValid k s).mcand = s.mcand := rfl
@[simp] theorem markValid_mfinal (k : Nat) (s : State) : (markValid k s).mfinal = s.mfinal := rfl
@[simp] theorem markValid_gen (k : Nat) (s : State) : (markValid k s).gen = s.gen := rfl
@[simp] theorem markValid_syn (k : Nat) (s : State) : (markValid k s).syn = s.syn := rfl

/-! ### markHeld -/

@[simp] theorem markHeld_pending (k : Nat) (s : State) : (markHeld k s).pending = s.pending := rfl
@[simp] theorem markHeld_hostData (k : Nat) (s : State) : (markHeld k s).hostData = s.hostData := rfl
@[simp] theorem markHeld_freeCtr (k : Nat) (s : State) : (markHeld k s).freeCtr = s.freeCtr := rfl
@[simp] theorem markHeld_memEpoch (k : Nat) (s : State) : (markHeld k s).memEpoch = s.memEpoch := rfl
@[simp] theorem markHeld_rom (k : Nat) (s : State) : (markHeld k s).rom = s.rom := rfl
@[simp] theorem markHeld_done (k : Nat) (s : State) : (markHeld k s).done = s.done := rfl
@[simp] theorem markHeld_err (k : Nat) (s : State) : (markHeld k s).err = s.err := rfl
@[simp] theorem markHeld_halt (k : Nat) (s : State) : (markHeld k s).halt = s.halt := rfl
@[simp] theorem markHeld_notice (k : Nat) (s : State) : (markHeld k s).notice = s.notice := rfl
@[simp] theorem markHeld_errcode (k : Nat) (s : State) : (markHeld k s).errcode = s.errcode := rfl
@[simp] theorem markHeld_errinfo (k : Nat) (s : State) : (markHeld k s).errinfo = s.errinfo := rfl
@[simp] theorem markHeld_valid (k : Nat) (s : State) : (markHeld k s).valid = s.valid := rfl
@[simp] theorem markHeld_held (k : Nat) (s : State) : (markHeld k s).held = s.held ||| validBit k := rfl
@[simp] theorem markHeld_version (k : Nat) (s : State) : (markHeld k s).version = s.version := rfl
@[simp] theorem markHeld_level (k : Nat) (s : State) : (markHeld k s).level = s.level := rfl
@[simp] theorem markHeld_len (k : Nat) (s : State) : (markHeld k s).len = s.len := rfl
@[simp] theorem markHeld_mode (k : Nat) (s : State) : (markHeld k s).mode = s.mode := rfl
@[simp] theorem markHeld_minver (k : Nat) (s : State) : (markHeld k s).minver = s.minver := rfl
@[simp] theorem markHeld_anvalid (k : Nat) (s : State) : (markHeld k s).anvalid = s.anvalid := rfl
@[simp] theorem markHeld_usedbits (k : Nat) (s : State) : (markHeld k s).usedbits = s.usedbits := rfl
@[simp] theorem markHeld_capbits (k : Nat) (s : State) : (markHeld k s).capbits = s.capbits := rfl
@[simp] theorem markHeld_ndcw (k : Nat) (s : State) : (markHeld k s).ndcw = s.ndcw := rfl
@[simp] theorem markHeld_nblk (k : Nat) (s : State) : (markHeld k s).nblk = s.nblk := rfl
@[simp] theorem markHeld_nec (k : Nat) (s : State) : (markHeld k s).nec = s.nec := rfl
@[simp] theorem markHeld_nicw (k : Nat) (s : State) : (markHeld k s).nicw = s.nicw := rfl
@[simp] theorem markHeld_size (k : Nat) (s : State) : (markHeld k s).size = s.size := rfl
@[simp] theorem markHeld_ndata (k : Nat) (s : State) : (markHeld k s).ndata = s.ndata := rfl
@[simp] theorem markHeld_masksel (k : Nat) (s : State) : (markHeld k s).masksel = s.masksel := rfl
@[simp] theorem markHeld_formatinfo (k : Nat) (s : State) : (markHeld k s).formatinfo = s.formatinfo := rfl
@[simp] theorem markHeld_versioninfo (k : Nat) (s : State) : (markHeld k s).versioninfo = s.versioninfo := rfl
@[simp] theorem markHeld_res0 (k : Nat) (s : State) : (markHeld k s).res0 = s.res0 := rfl
@[simp] theorem markHeld_res1 (k : Nat) (s : State) : (markHeld k s).res1 = s.res1 := rfl
@[simp] theorem markHeld_res2 (k : Nat) (s : State) : (markHeld k s).res2 = s.res2 := rfl
@[simp] theorem markHeld_pen (k : Nat) (s : State) : (markHeld k s).pen = s.pen := rfl
@[simp] theorem markHeld_mem (k : Nat) (s : State) : (markHeld k s).mem = s.mem := rfl
@[simp] theorem markHeld_bits (k : Nat) (s : State) : (markHeld k s).bits = s.bits := rfl
@[simp] theorem markHeld_dcw (k : Nat) (s : State) : (markHeld k s).dcw = s.dcw := rfl
@[simp] theorem markHeld_dblk (k : Nat) (s : State) : (markHeld k s).dblk = s.dblk := rfl
@[simp] theorem markHeld_eblk (k : Nat) (s : State) : (markHeld k s).eblk = s.eblk := rfl
@[simp] theorem markHeld_icw (k : Nat) (s : State) : (markHeld k s).icw = s.icw := rfl
@[simp] theorem markHeld_mtype (k : Nat) (s : State) : (markHeld k s).mtype = s.mtype := rfl
@[simp] theorem markHeld_mfunc (k : Nat) (s : State) : (markHeld k s).mfunc = s.mfunc := rfl
@[simp] theorem markHeld_mpre (k : Nat) (s : State) : (markHeld k s).mpre = s.mpre := rfl
@[simp] theorem markHeld_mcand (k : Nat) (s : State) : (markHeld k s).mcand = s.mcand := rfl
@[simp] theorem markHeld_mfinal (k : Nat) (s : State) : (markHeld k s).mfinal = s.mfinal := rfl
@[simp] theorem markHeld_gen (k : Nat) (s : State) : (markHeld k s).gen = s.gen := rfl
@[simp] theorem markHeld_syn (k : Nat) (s : State) : (markHeld k s).syn = s.syn := rfl

/-! ### raise -/

@[simp] theorem raise_pending (e : Error) (w : Word) (s : State) : (raise e w s).pending = s.pending := rfl
@[simp] theorem raise_hostData (e : Error) (w : Word) (s : State) : (raise e w s).hostData = s.hostData := rfl
@[simp] theorem raise_freeCtr (e : Error) (w : Word) (s : State) : (raise e w s).freeCtr = s.freeCtr := rfl
@[simp] theorem raise_memEpoch (e : Error) (w : Word) (s : State) : (raise e w s).memEpoch = s.memEpoch := rfl
@[simp] theorem raise_rom (e : Error) (w : Word) (s : State) : (raise e w s).rom = s.rom := rfl
@[simp] theorem raise_done (e : Error) (w : Word) (s : State) : (raise e w s).done = false := rfl
@[simp] theorem raise_err (e : Error) (w : Word) (s : State) : (raise e w s).err = true := rfl
@[simp] theorem raise_halt (e : Error) (w : Word) (s : State) : (raise e w s).halt = (s.halt || isFatal e) := rfl
@[simp] theorem raise_notice (e : Error) (w : Word) (s : State) : (raise e w s).notice = s.notice := rfl
@[simp] theorem raise_errcode (e : Error) (w : Word) (s : State) : (raise e w s).errcode = errorCode e := rfl
@[simp] theorem raise_errinfo (e : Error) (w : Word) (s : State) : (raise e w s).errinfo = w := rfl
@[simp] theorem raise_valid (e : Error) (w : Word) (s : State) : (raise e w s).valid = s.valid := rfl
@[simp] theorem raise_held (e : Error) (w : Word) (s : State) : (raise e w s).held = s.held := rfl
@[simp] theorem raise_version (e : Error) (w : Word) (s : State) : (raise e w s).version = s.version := rfl
@[simp] theorem raise_level (e : Error) (w : Word) (s : State) : (raise e w s).level = s.level := rfl
@[simp] theorem raise_len (e : Error) (w : Word) (s : State) : (raise e w s).len = s.len := rfl
@[simp] theorem raise_mode (e : Error) (w : Word) (s : State) : (raise e w s).mode = s.mode := rfl
@[simp] theorem raise_minver (e : Error) (w : Word) (s : State) : (raise e w s).minver = s.minver := rfl
@[simp] theorem raise_anvalid (e : Error) (w : Word) (s : State) : (raise e w s).anvalid = s.anvalid := rfl
@[simp] theorem raise_usedbits (e : Error) (w : Word) (s : State) : (raise e w s).usedbits = s.usedbits := rfl
@[simp] theorem raise_capbits (e : Error) (w : Word) (s : State) : (raise e w s).capbits = s.capbits := rfl
@[simp] theorem raise_ndcw (e : Error) (w : Word) (s : State) : (raise e w s).ndcw = s.ndcw := rfl
@[simp] theorem raise_nblk (e : Error) (w : Word) (s : State) : (raise e w s).nblk = s.nblk := rfl
@[simp] theorem raise_nec (e : Error) (w : Word) (s : State) : (raise e w s).nec = s.nec := rfl
@[simp] theorem raise_nicw (e : Error) (w : Word) (s : State) : (raise e w s).nicw = s.nicw := rfl
@[simp] theorem raise_size (e : Error) (w : Word) (s : State) : (raise e w s).size = s.size := rfl
@[simp] theorem raise_ndata (e : Error) (w : Word) (s : State) : (raise e w s).ndata = s.ndata := rfl
@[simp] theorem raise_masksel (e : Error) (w : Word) (s : State) : (raise e w s).masksel = s.masksel := rfl
@[simp] theorem raise_formatinfo (e : Error) (w : Word) (s : State) : (raise e w s).formatinfo = s.formatinfo := rfl
@[simp] theorem raise_versioninfo (e : Error) (w : Word) (s : State) : (raise e w s).versioninfo = s.versioninfo := rfl
@[simp] theorem raise_res0 (e : Error) (w : Word) (s : State) : (raise e w s).res0 = s.res0 := rfl
@[simp] theorem raise_res1 (e : Error) (w : Word) (s : State) : (raise e w s).res1 = s.res1 := rfl
@[simp] theorem raise_res2 (e : Error) (w : Word) (s : State) : (raise e w s).res2 = s.res2 := rfl
@[simp] theorem raise_pen (e : Error) (w : Word) (s : State) : (raise e w s).pen = s.pen := rfl
@[simp] theorem raise_mem (e : Error) (w : Word) (s : State) : (raise e w s).mem = s.mem := rfl
@[simp] theorem raise_bits (e : Error) (w : Word) (s : State) : (raise e w s).bits = s.bits := rfl
@[simp] theorem raise_dcw (e : Error) (w : Word) (s : State) : (raise e w s).dcw = s.dcw := rfl
@[simp] theorem raise_dblk (e : Error) (w : Word) (s : State) : (raise e w s).dblk = s.dblk := rfl
@[simp] theorem raise_eblk (e : Error) (w : Word) (s : State) : (raise e w s).eblk = s.eblk := rfl
@[simp] theorem raise_icw (e : Error) (w : Word) (s : State) : (raise e w s).icw = s.icw := rfl
@[simp] theorem raise_mtype (e : Error) (w : Word) (s : State) : (raise e w s).mtype = s.mtype := rfl
@[simp] theorem raise_mfunc (e : Error) (w : Word) (s : State) : (raise e w s).mfunc = s.mfunc := rfl
@[simp] theorem raise_mpre (e : Error) (w : Word) (s : State) : (raise e w s).mpre = s.mpre := rfl
@[simp] theorem raise_mcand (e : Error) (w : Word) (s : State) : (raise e w s).mcand = s.mcand := rfl
@[simp] theorem raise_mfinal (e : Error) (w : Word) (s : State) : (raise e w s).mfinal = s.mfinal := rfl
@[simp] theorem raise_gen (e : Error) (w : Word) (s : State) : (raise e w s).gen = s.gen := rfl
@[simp] theorem raise_syn (e : Error) (w : Word) (s : State) : (raise e w s).syn = s.syn := rfl

/-! ### complete -/

@[simp] theorem complete_pending (s : State) : (complete s).pending = s.pending := rfl
@[simp] theorem complete_hostData (s : State) : (complete s).hostData = s.hostData := rfl
@[simp] theorem complete_freeCtr (s : State) : (complete s).freeCtr = s.freeCtr := rfl
@[simp] theorem complete_memEpoch (s : State) : (complete s).memEpoch = s.memEpoch := rfl
@[simp] theorem complete_rom (s : State) : (complete s).rom = s.rom := rfl
@[simp] theorem complete_done (s : State) : (complete s).done = true := rfl
@[simp] theorem complete_err (s : State) : (complete s).err = false := rfl
@[simp] theorem complete_halt (s : State) : (complete s).halt = s.halt := rfl
@[simp] theorem complete_notice (s : State) : (complete s).notice = s.notice := rfl
@[simp] theorem complete_errcode (s : State) : (complete s).errcode = 0 := rfl
@[simp] theorem complete_errinfo (s : State) : (complete s).errinfo = 0 := rfl
@[simp] theorem complete_valid (s : State) : (complete s).valid = s.valid := rfl
@[simp] theorem complete_held (s : State) : (complete s).held = s.held := rfl
@[simp] theorem complete_version (s : State) : (complete s).version = s.version := rfl
@[simp] theorem complete_level (s : State) : (complete s).level = s.level := rfl
@[simp] theorem complete_len (s : State) : (complete s).len = s.len := rfl
@[simp] theorem complete_mode (s : State) : (complete s).mode = s.mode := rfl
@[simp] theorem complete_minver (s : State) : (complete s).minver = s.minver := rfl
@[simp] theorem complete_anvalid (s : State) : (complete s).anvalid = s.anvalid := rfl
@[simp] theorem complete_usedbits (s : State) : (complete s).usedbits = s.usedbits := rfl
@[simp] theorem complete_capbits (s : State) : (complete s).capbits = s.capbits := rfl
@[simp] theorem complete_ndcw (s : State) : (complete s).ndcw = s.ndcw := rfl
@[simp] theorem complete_nblk (s : State) : (complete s).nblk = s.nblk := rfl
@[simp] theorem complete_nec (s : State) : (complete s).nec = s.nec := rfl
@[simp] theorem complete_nicw (s : State) : (complete s).nicw = s.nicw := rfl
@[simp] theorem complete_size (s : State) : (complete s).size = s.size := rfl
@[simp] theorem complete_ndata (s : State) : (complete s).ndata = s.ndata := rfl
@[simp] theorem complete_masksel (s : State) : (complete s).masksel = s.masksel := rfl
@[simp] theorem complete_formatinfo (s : State) : (complete s).formatinfo = s.formatinfo := rfl
@[simp] theorem complete_versioninfo (s : State) : (complete s).versioninfo = s.versioninfo := rfl
@[simp] theorem complete_res0 (s : State) : (complete s).res0 = s.res0 := rfl
@[simp] theorem complete_res1 (s : State) : (complete s).res1 = s.res1 := rfl
@[simp] theorem complete_res2 (s : State) : (complete s).res2 = s.res2 := rfl
@[simp] theorem complete_pen (s : State) : (complete s).pen = s.pen := rfl
@[simp] theorem complete_mem (s : State) : (complete s).mem = s.mem := rfl
@[simp] theorem complete_bits (s : State) : (complete s).bits = s.bits := rfl
@[simp] theorem complete_dcw (s : State) : (complete s).dcw = s.dcw := rfl
@[simp] theorem complete_dblk (s : State) : (complete s).dblk = s.dblk := rfl
@[simp] theorem complete_eblk (s : State) : (complete s).eblk = s.eblk := rfl
@[simp] theorem complete_icw (s : State) : (complete s).icw = s.icw := rfl
@[simp] theorem complete_mtype (s : State) : (complete s).mtype = s.mtype := rfl
@[simp] theorem complete_mfunc (s : State) : (complete s).mfunc = s.mfunc := rfl
@[simp] theorem complete_mpre (s : State) : (complete s).mpre = s.mpre := rfl
@[simp] theorem complete_mcand (s : State) : (complete s).mcand = s.mcand := rfl
@[simp] theorem complete_mfinal (s : State) : (complete s).mfinal = s.mfinal := rfl
@[simp] theorem complete_gen (s : State) : (complete s).gen = s.gen := rfl
@[simp] theorem complete_syn (s : State) : (complete s).syn = s.syn := rfl

/-! ### writeByte -/

@[simp] theorem writeByte_pending (a : Nat) (b : Byte) (s : State) : (writeByte a b s).pending = s.pending := rfl
@[simp] theorem writeByte_hostData (a : Nat) (b : Byte) (s : State) : (writeByte a b s).hostData = s.hostData := rfl
@[simp] theorem writeByte_freeCtr (a : Nat) (b : Byte) (s : State) : (writeByte a b s).freeCtr = s.freeCtr := rfl
@[simp] theorem writeByte_memEpoch (a : Nat) (b : Byte) (s : State) : (writeByte a b s).memEpoch = s.memEpoch := rfl
@[simp] theorem writeByte_rom (a : Nat) (b : Byte) (s : State) : (writeByte a b s).rom = s.rom := rfl
@[simp] theorem writeByte_done (a : Nat) (b : Byte) (s : State) : (writeByte a b s).done = s.done := rfl
@[simp] theorem writeByte_err (a : Nat) (b : Byte) (s : State) : (writeByte a b s).err = s.err := rfl
@[simp] theorem writeByte_halt (a : Nat) (b : Byte) (s : State) : (writeByte a b s).halt = s.halt := rfl
@[simp] theorem writeByte_notice (a : Nat) (b : Byte) (s : State) : (writeByte a b s).notice = s.notice := rfl
@[simp] theorem writeByte_errcode (a : Nat) (b : Byte) (s : State) : (writeByte a b s).errcode = s.errcode := rfl
@[simp] theorem writeByte_errinfo (a : Nat) (b : Byte) (s : State) : (writeByte a b s).errinfo = s.errinfo := rfl
@[simp] theorem writeByte_valid (a : Nat) (b : Byte) (s : State) : (writeByte a b s).valid = s.valid := rfl
@[simp] theorem writeByte_held (a : Nat) (b : Byte) (s : State) : (writeByte a b s).held = s.held := rfl
@[simp] theorem writeByte_version (a : Nat) (b : Byte) (s : State) : (writeByte a b s).version = s.version := rfl
@[simp] theorem writeByte_level (a : Nat) (b : Byte) (s : State) : (writeByte a b s).level = s.level := rfl
@[simp] theorem writeByte_len (a : Nat) (b : Byte) (s : State) : (writeByte a b s).len = s.len := rfl
@[simp] theorem writeByte_mode (a : Nat) (b : Byte) (s : State) : (writeByte a b s).mode = s.mode := rfl
@[simp] theorem writeByte_minver (a : Nat) (b : Byte) (s : State) : (writeByte a b s).minver = s.minver := rfl
@[simp] theorem writeByte_anvalid (a : Nat) (b : Byte) (s : State) : (writeByte a b s).anvalid = s.anvalid := rfl
@[simp] theorem writeByte_usedbits (a : Nat) (b : Byte) (s : State) : (writeByte a b s).usedbits = s.usedbits := rfl
@[simp] theorem writeByte_capbits (a : Nat) (b : Byte) (s : State) : (writeByte a b s).capbits = s.capbits := rfl
@[simp] theorem writeByte_ndcw (a : Nat) (b : Byte) (s : State) : (writeByte a b s).ndcw = s.ndcw := rfl
@[simp] theorem writeByte_nblk (a : Nat) (b : Byte) (s : State) : (writeByte a b s).nblk = s.nblk := rfl
@[simp] theorem writeByte_nec (a : Nat) (b : Byte) (s : State) : (writeByte a b s).nec = s.nec := rfl
@[simp] theorem writeByte_nicw (a : Nat) (b : Byte) (s : State) : (writeByte a b s).nicw = s.nicw := rfl
@[simp] theorem writeByte_size (a : Nat) (b : Byte) (s : State) : (writeByte a b s).size = s.size := rfl
@[simp] theorem writeByte_ndata (a : Nat) (b : Byte) (s : State) : (writeByte a b s).ndata = s.ndata := rfl
@[simp] theorem writeByte_masksel (a : Nat) (b : Byte) (s : State) : (writeByte a b s).masksel = s.masksel := rfl
@[simp] theorem writeByte_formatinfo (a : Nat) (b : Byte) (s : State) : (writeByte a b s).formatinfo = s.formatinfo := rfl
@[simp] theorem writeByte_versioninfo (a : Nat) (b : Byte) (s : State) : (writeByte a b s).versioninfo = s.versioninfo := rfl
@[simp] theorem writeByte_res0 (a : Nat) (b : Byte) (s : State) : (writeByte a b s).res0 = s.res0 := rfl
@[simp] theorem writeByte_res1 (a : Nat) (b : Byte) (s : State) : (writeByte a b s).res1 = s.res1 := rfl
@[simp] theorem writeByte_res2 (a : Nat) (b : Byte) (s : State) : (writeByte a b s).res2 = s.res2 := rfl
@[simp] theorem writeByte_pen (a : Nat) (b : Byte) (s : State) : (writeByte a b s).pen = s.pen := rfl
@[simp] theorem writeByte_mem (a : Nat) (b : Byte) (s : State) : (writeByte a b s).mem = insertCell a b s.mem := rfl
@[simp] theorem writeByte_bits (a : Nat) (b : Byte) (s : State) : (writeByte a b s).bits = s.bits := rfl
@[simp] theorem writeByte_dcw (a : Nat) (b : Byte) (s : State) : (writeByte a b s).dcw = s.dcw := rfl
@[simp] theorem writeByte_dblk (a : Nat) (b : Byte) (s : State) : (writeByte a b s).dblk = s.dblk := rfl
@[simp] theorem writeByte_eblk (a : Nat) (b : Byte) (s : State) : (writeByte a b s).eblk = s.eblk := rfl
@[simp] theorem writeByte_icw (a : Nat) (b : Byte) (s : State) : (writeByte a b s).icw = s.icw := rfl
@[simp] theorem writeByte_mtype (a : Nat) (b : Byte) (s : State) : (writeByte a b s).mtype = s.mtype := rfl
@[simp] theorem writeByte_mfunc (a : Nat) (b : Byte) (s : State) : (writeByte a b s).mfunc = s.mfunc := rfl
@[simp] theorem writeByte_mpre (a : Nat) (b : Byte) (s : State) : (writeByte a b s).mpre = s.mpre := rfl
@[simp] theorem writeByte_mcand (a : Nat) (b : Byte) (s : State) : (writeByte a b s).mcand = s.mcand := rfl
@[simp] theorem writeByte_mfinal (a : Nat) (b : Byte) (s : State) : (writeByte a b s).mfinal = s.mfinal := rfl
@[simp] theorem writeByte_gen (a : Nat) (b : Byte) (s : State) : (writeByte a b s).gen = s.gen := rfl
@[simp] theorem writeByte_syn (a : Nat) (b : Byte) (s : State) : (writeByte a b s).syn = s.syn := rfl

/-! ### writeBytes -/

@[simp] theorem writeBytes_pending (a : Nat) (bs : List Byte) (s : State) : (writeBytes a bs s).pending = s.pending := rfl
@[simp] theorem writeBytes_hostData (a : Nat) (bs : List Byte) (s : State) : (writeBytes a bs s).hostData = s.hostData := rfl
@[simp] theorem writeBytes_freeCtr (a : Nat) (bs : List Byte) (s : State) : (writeBytes a bs s).freeCtr = s.freeCtr := rfl
@[simp] theorem writeBytes_memEpoch (a : Nat) (bs : List Byte) (s : State) : (writeBytes a bs s).memEpoch = s.memEpoch := rfl
@[simp] theorem writeBytes_rom (a : Nat) (bs : List Byte) (s : State) : (writeBytes a bs s).rom = s.rom := rfl
@[simp] theorem writeBytes_done (a : Nat) (bs : List Byte) (s : State) : (writeBytes a bs s).done = s.done := rfl
@[simp] theorem writeBytes_err (a : Nat) (bs : List Byte) (s : State) : (writeBytes a bs s).err = s.err := rfl
@[simp] theorem writeBytes_halt (a : Nat) (bs : List Byte) (s : State) : (writeBytes a bs s).halt = s.halt := rfl
@[simp] theorem writeBytes_notice (a : Nat) (bs : List Byte) (s : State) : (writeBytes a bs s).notice = s.notice := rfl
@[simp] theorem writeBytes_errcode (a : Nat) (bs : List Byte) (s : State) : (writeBytes a bs s).errcode = s.errcode := rfl
@[simp] theorem writeBytes_errinfo (a : Nat) (bs : List Byte) (s : State) : (writeBytes a bs s).errinfo = s.errinfo := rfl
@[simp] theorem writeBytes_valid (a : Nat) (bs : List Byte) (s : State) : (writeBytes a bs s).valid = s.valid := rfl
@[simp] theorem writeBytes_held (a : Nat) (bs : List Byte) (s : State) : (writeBytes a bs s).held = s.held := rfl
@[simp] theorem writeBytes_version (a : Nat) (bs : List Byte) (s : State) : (writeBytes a bs s).version = s.version := rfl
@[simp] theorem writeBytes_level (a : Nat) (bs : List Byte) (s : State) : (writeBytes a bs s).level = s.level := rfl
@[simp] theorem writeBytes_len (a : Nat) (bs : List Byte) (s : State) : (writeBytes a bs s).len = s.len := rfl
@[simp] theorem writeBytes_mode (a : Nat) (bs : List Byte) (s : State) : (writeBytes a bs s).mode = s.mode := rfl
@[simp] theorem writeBytes_minver (a : Nat) (bs : List Byte) (s : State) : (writeBytes a bs s).minver = s.minver := rfl
@[simp] theorem writeBytes_anvalid (a : Nat) (bs : List Byte) (s : State) : (writeBytes a bs s).anvalid = s.anvalid := rfl
@[simp] theorem writeBytes_usedbits (a : Nat) (bs : List Byte) (s : State) : (writeBytes a bs s).usedbits = s.usedbits := rfl
@[simp] theorem writeBytes_capbits (a : Nat) (bs : List Byte) (s : State) : (writeBytes a bs s).capbits = s.capbits := rfl
@[simp] theorem writeBytes_ndcw (a : Nat) (bs : List Byte) (s : State) : (writeBytes a bs s).ndcw = s.ndcw := rfl
@[simp] theorem writeBytes_nblk (a : Nat) (bs : List Byte) (s : State) : (writeBytes a bs s).nblk = s.nblk := rfl
@[simp] theorem writeBytes_nec (a : Nat) (bs : List Byte) (s : State) : (writeBytes a bs s).nec = s.nec := rfl
@[simp] theorem writeBytes_nicw (a : Nat) (bs : List Byte) (s : State) : (writeBytes a bs s).nicw = s.nicw := rfl
@[simp] theorem writeBytes_size (a : Nat) (bs : List Byte) (s : State) : (writeBytes a bs s).size = s.size := rfl
@[simp] theorem writeBytes_ndata (a : Nat) (bs : List Byte) (s : State) : (writeBytes a bs s).ndata = s.ndata := rfl
@[simp] theorem writeBytes_masksel (a : Nat) (bs : List Byte) (s : State) : (writeBytes a bs s).masksel = s.masksel := rfl
@[simp] theorem writeBytes_formatinfo (a : Nat) (bs : List Byte) (s : State) : (writeBytes a bs s).formatinfo = s.formatinfo := rfl
@[simp] theorem writeBytes_versioninfo (a : Nat) (bs : List Byte) (s : State) : (writeBytes a bs s).versioninfo = s.versioninfo := rfl
@[simp] theorem writeBytes_res0 (a : Nat) (bs : List Byte) (s : State) : (writeBytes a bs s).res0 = s.res0 := rfl
@[simp] theorem writeBytes_res1 (a : Nat) (bs : List Byte) (s : State) : (writeBytes a bs s).res1 = s.res1 := rfl
@[simp] theorem writeBytes_res2 (a : Nat) (bs : List Byte) (s : State) : (writeBytes a bs s).res2 = s.res2 := rfl
@[simp] theorem writeBytes_pen (a : Nat) (bs : List Byte) (s : State) : (writeBytes a bs s).pen = s.pen := rfl
@[simp] theorem writeBytes_mem (a : Nat) (bs : List Byte) (s : State) : (writeBytes a bs s).mem = insertCells a bs s.mem := rfl
@[simp] theorem writeBytes_bits (a : Nat) (bs : List Byte) (s : State) : (writeBytes a bs s).bits = s.bits := rfl
@[simp] theorem writeBytes_dcw (a : Nat) (bs : List Byte) (s : State) : (writeBytes a bs s).dcw = s.dcw := rfl
@[simp] theorem writeBytes_dblk (a : Nat) (bs : List Byte) (s : State) : (writeBytes a bs s).dblk = s.dblk := rfl
@[simp] theorem writeBytes_eblk (a : Nat) (bs : List Byte) (s : State) : (writeBytes a bs s).eblk = s.eblk := rfl
@[simp] theorem writeBytes_icw (a : Nat) (bs : List Byte) (s : State) : (writeBytes a bs s).icw = s.icw := rfl
@[simp] theorem writeBytes_mtype (a : Nat) (bs : List Byte) (s : State) : (writeBytes a bs s).mtype = s.mtype := rfl
@[simp] theorem writeBytes_mfunc (a : Nat) (bs : List Byte) (s : State) : (writeBytes a bs s).mfunc = s.mfunc := rfl
@[simp] theorem writeBytes_mpre (a : Nat) (bs : List Byte) (s : State) : (writeBytes a bs s).mpre = s.mpre := rfl
@[simp] theorem writeBytes_mcand (a : Nat) (bs : List Byte) (s : State) : (writeBytes a bs s).mcand = s.mcand := rfl
@[simp] theorem writeBytes_mfinal (a : Nat) (bs : List Byte) (s : State) : (writeBytes a bs s).mfinal = s.mfinal := rfl
@[simp] theorem writeBytes_gen (a : Nat) (bs : List Byte) (s : State) : (writeBytes a bs s).gen = s.gen := rfl
@[simp] theorem writeBytes_syn (a : Nat) (bs : List Byte) (s : State) : (writeBytes a bs s).syn = s.syn := rfl

/-! ### writeBlk -/

@[simp] theorem writeBlk_pending (i : Nat) (bs : List Byte) (s : State) : (writeBlk i bs s).pending = s.pending := rfl
@[simp] theorem writeBlk_hostData (i : Nat) (bs : List Byte) (s : State) : (writeBlk i bs s).hostData = s.hostData := rfl
@[simp] theorem writeBlk_freeCtr (i : Nat) (bs : List Byte) (s : State) : (writeBlk i bs s).freeCtr = s.freeCtr := rfl
@[simp] theorem writeBlk_memEpoch (i : Nat) (bs : List Byte) (s : State) : (writeBlk i bs s).memEpoch = s.memEpoch := rfl
@[simp] theorem writeBlk_rom (i : Nat) (bs : List Byte) (s : State) : (writeBlk i bs s).rom = s.rom := rfl
@[simp] theorem writeBlk_done (i : Nat) (bs : List Byte) (s : State) : (writeBlk i bs s).done = s.done := rfl
@[simp] theorem writeBlk_err (i : Nat) (bs : List Byte) (s : State) : (writeBlk i bs s).err = s.err := rfl
@[simp] theorem writeBlk_halt (i : Nat) (bs : List Byte) (s : State) : (writeBlk i bs s).halt = s.halt := rfl
@[simp] theorem writeBlk_notice (i : Nat) (bs : List Byte) (s : State) : (writeBlk i bs s).notice = s.notice := rfl
@[simp] theorem writeBlk_errcode (i : Nat) (bs : List Byte) (s : State) : (writeBlk i bs s).errcode = s.errcode := rfl
@[simp] theorem writeBlk_errinfo (i : Nat) (bs : List Byte) (s : State) : (writeBlk i bs s).errinfo = s.errinfo := rfl
@[simp] theorem writeBlk_valid (i : Nat) (bs : List Byte) (s : State) : (writeBlk i bs s).valid = s.valid := rfl
@[simp] theorem writeBlk_held (i : Nat) (bs : List Byte) (s : State) : (writeBlk i bs s).held = s.held := rfl
@[simp] theorem writeBlk_version (i : Nat) (bs : List Byte) (s : State) : (writeBlk i bs s).version = s.version := rfl
@[simp] theorem writeBlk_level (i : Nat) (bs : List Byte) (s : State) : (writeBlk i bs s).level = s.level := rfl
@[simp] theorem writeBlk_len (i : Nat) (bs : List Byte) (s : State) : (writeBlk i bs s).len = s.len := rfl
@[simp] theorem writeBlk_mode (i : Nat) (bs : List Byte) (s : State) : (writeBlk i bs s).mode = s.mode := rfl
@[simp] theorem writeBlk_minver (i : Nat) (bs : List Byte) (s : State) : (writeBlk i bs s).minver = s.minver := rfl
@[simp] theorem writeBlk_anvalid (i : Nat) (bs : List Byte) (s : State) : (writeBlk i bs s).anvalid = s.anvalid := rfl
@[simp] theorem writeBlk_usedbits (i : Nat) (bs : List Byte) (s : State) : (writeBlk i bs s).usedbits = s.usedbits := rfl
@[simp] theorem writeBlk_capbits (i : Nat) (bs : List Byte) (s : State) : (writeBlk i bs s).capbits = s.capbits := rfl
@[simp] theorem writeBlk_ndcw (i : Nat) (bs : List Byte) (s : State) : (writeBlk i bs s).ndcw = s.ndcw := rfl
@[simp] theorem writeBlk_nblk (i : Nat) (bs : List Byte) (s : State) : (writeBlk i bs s).nblk = s.nblk := rfl
@[simp] theorem writeBlk_nec (i : Nat) (bs : List Byte) (s : State) : (writeBlk i bs s).nec = s.nec := rfl
@[simp] theorem writeBlk_nicw (i : Nat) (bs : List Byte) (s : State) : (writeBlk i bs s).nicw = s.nicw := rfl
@[simp] theorem writeBlk_size (i : Nat) (bs : List Byte) (s : State) : (writeBlk i bs s).size = s.size := rfl
@[simp] theorem writeBlk_ndata (i : Nat) (bs : List Byte) (s : State) : (writeBlk i bs s).ndata = s.ndata := rfl
@[simp] theorem writeBlk_masksel (i : Nat) (bs : List Byte) (s : State) : (writeBlk i bs s).masksel = s.masksel := rfl
@[simp] theorem writeBlk_formatinfo (i : Nat) (bs : List Byte) (s : State) : (writeBlk i bs s).formatinfo = s.formatinfo := rfl
@[simp] theorem writeBlk_versioninfo (i : Nat) (bs : List Byte) (s : State) : (writeBlk i bs s).versioninfo = s.versioninfo := rfl
@[simp] theorem writeBlk_res0 (i : Nat) (bs : List Byte) (s : State) : (writeBlk i bs s).res0 = s.res0 := rfl
@[simp] theorem writeBlk_res1 (i : Nat) (bs : List Byte) (s : State) : (writeBlk i bs s).res1 = s.res1 := rfl
@[simp] theorem writeBlk_res2 (i : Nat) (bs : List Byte) (s : State) : (writeBlk i bs s).res2 = s.res2 := rfl
@[simp] theorem writeBlk_pen (i : Nat) (bs : List Byte) (s : State) : (writeBlk i bs s).pen = s.pen := rfl
@[simp] theorem writeBlk_mem (i : Nat) (bs : List Byte) (s : State) : (writeBlk i bs s).mem = insertCells (blkBase + i) bs s.mem := rfl
@[simp] theorem writeBlk_bits (i : Nat) (bs : List Byte) (s : State) : (writeBlk i bs s).bits = s.bits := rfl
@[simp] theorem writeBlk_dcw (i : Nat) (bs : List Byte) (s : State) : (writeBlk i bs s).dcw = s.dcw := rfl
@[simp] theorem writeBlk_dblk (i : Nat) (bs : List Byte) (s : State) : (writeBlk i bs s).dblk = s.dblk := rfl
@[simp] theorem writeBlk_eblk (i : Nat) (bs : List Byte) (s : State) : (writeBlk i bs s).eblk = s.eblk := rfl
@[simp] theorem writeBlk_icw (i : Nat) (bs : List Byte) (s : State) : (writeBlk i bs s).icw = s.icw := rfl
@[simp] theorem writeBlk_mtype (i : Nat) (bs : List Byte) (s : State) : (writeBlk i bs s).mtype = s.mtype := rfl
@[simp] theorem writeBlk_mfunc (i : Nat) (bs : List Byte) (s : State) : (writeBlk i bs s).mfunc = s.mfunc := rfl
@[simp] theorem writeBlk_mpre (i : Nat) (bs : List Byte) (s : State) : (writeBlk i bs s).mpre = s.mpre := rfl
@[simp] theorem writeBlk_mcand (i : Nat) (bs : List Byte) (s : State) : (writeBlk i bs s).mcand = s.mcand := rfl
@[simp] theorem writeBlk_mfinal (i : Nat) (bs : List Byte) (s : State) : (writeBlk i bs s).mfinal = s.mfinal := rfl
@[simp] theorem writeBlk_gen (i : Nat) (bs : List Byte) (s : State) : (writeBlk i bs s).gen = s.gen := rfl
@[simp] theorem writeBlk_syn (i : Nat) (bs : List Byte) (s : State) : (writeBlk i bs s).syn = s.syn := rfl

end Sys2Proof.Machine
end

