-- ==== Sys2Proof/Laws/Command.lean ====
section
/-! SUPPORT. What a command word in execution can do (30_encoding.md R80): each case of `command`, and the one inversion
lemma that says them all. -/

namespace Sys2Proof.Machine

variable {i : Instr} {operandsOk ready : Bool} {rule : State → RuleResult} {s : State}

theorem command_halted (h : s.halt = true) : command i operandsOk ready rule s = raise .halted (encode i) s := by
  simp [command, h]

theorem command_badOperand (h : s.halt = false) :
    command i false ready rule s = raise .badOperand (encode i) s := by
  simp [command, h]

theorem command_notReady (h : s.halt = false) : command i true false rule s = raise .sequenceError (encode i) s := by
  simp [command, h]

theorem command_runs (h : s.halt = false) : command i true true rule s = conclude (encode i) (rule s) := by
  simp [command, h]

theorem command_done {t : State} (h : s.halt = false) (hr : rule s = .done t) :
    command i true true rule s = complete t := by
  rw [command_runs h, hr, conclude]

theorem command_raised {e : Error} {t : State} (h : s.halt = false) (hr : rule s = .raised e t) :
    command i true true rule s = raise e (encode i) t := by
  rw [command_runs h, hr, conclude]

/-- Everything a command word in execution can do: one of the three reports that change nothing else, or its rule's
effect followed by the report of success or of the rule's own error. -/
theorem command_cases (i : Instr) (operandsOk ready : Bool) (rule : State → RuleResult) (s : State) :
    (s.halt = true ∧ command i operandsOk ready rule s = raise .halted (encode i) s) ∨
    (s.halt = false ∧ operandsOk = false ∧ command i operandsOk ready rule s = raise .badOperand (encode i) s) ∨
    (s.halt = false ∧ operandsOk = true ∧ ready = false ∧
      command i operandsOk ready rule s = raise .sequenceError (encode i) s) ∨
    (s.halt = false ∧ operandsOk = true ∧ ready = true ∧
      ((∃ t, rule s = .done t ∧ command i operandsOk ready rule s = complete t) ∨
       ∃ e t, rule s = .raised e t ∧ command i operandsOk ready rule s = raise e (encode i) t)) := by
  cases hh : s.halt
  · cases operandsOk
    · exact .inr (.inl ⟨rfl, rfl, command_badOperand hh⟩)
    · cases ready
      · exact .inr (.inr (.inl ⟨rfl, rfl, rfl, command_notReady hh⟩))
      · refine .inr (.inr (.inr ⟨rfl, rfl, rfl, ?_⟩))
        cases hr : rule s with
        | done t => exact .inl ⟨t, rfl, command_done hh hr⟩
        | raised e t => exact .inr ⟨e, t, rfl, command_raised hh hr⟩
  · exact .inl ⟨rfl, command_halted hh⟩

/-- A property of states that no report changes holds after a command if it holds before and its rule keeps it. -/
theorem command_keeps {P : State → Prop} (hraise : ∀ e w t, P t → P (raise e w t)) (hcomplete : ∀ t, P t → P (complete t))
    (hs : P s) (hdone : ∀ t, operandsOk = true → ready = true → rule s = .done t → P t)
    (hraised : ∀ e t, operandsOk = true → ready = true → rule s = .raised e t → P t) :
    P (command i operandsOk ready rule s) := by
  rcases command_cases i operandsOk ready rule s with ⟨_, h⟩ | ⟨_, _, h⟩ | ⟨_, _, _, h⟩ | ⟨_, ho, hr, h⟩
  · exact h ▸ hraise _ _ _ hs
  · exact h ▸ hraise _ _ _ hs
  · exact h ▸ hraise _ _ _ hs
  · rcases h with ⟨t, ht, h⟩ | ⟨e, t, ht, h⟩
    · exact h ▸ hcomplete _ (hdone t ho hr ht)
    · exact h ▸ hraise _ _ _ (hraised e t ho hr ht)

end Sys2Proof.Machine
end

