-- ==== Sys2Proof/Laws/Exec.lean ====
section
/-! SUPPORT. Every command but SRESET is one `command` with its own operand check, required bit and rule: the one lemma from
which statements about all commands follow by `command_cases`. -/

namespace Sys2Proof.Machine

/-- The operand check of R87 as the machine makes it. -/
def operandsOk (i : Instr) (s : State) : Bool :=
  match i with
  | .nop => true
  | .sreset => true
  | .gfmul _ _ => true
  | .gfgen n => gfgenInRange n
  | .rsenc k n => rsencInRange k n
  | .rssyn len n => blockInRange len n
  | .rscor len n => blockInRange len n
  | .analyze => versionInRange s
  | .pack => true
  | .rssplit => true
  | .rsilv => true
  | .matinit => true
  | .matplace => true
  | .maskeval => true
  | .masksel => true
  | .infostamp => true
  | .encode => versionInRange s
  | .fmtenc _ _ => true
  | .fmtdec _ => true
  | .verenc _ => true
  | .verdec _ => true

/-- The precondition of R88 as the machine makes it. -/
def readyFor (i : Instr) (s : State) : Bool :=
  match requiredBit i with
  | some k => isValid k s
  | none => true

/-- The command's rule. -/
def ruleOf (i : Instr) (s : State) : RuleResult :=
  match i with
  | .nop => .done s
  | .sreset => .done (softReset s)
  | .gfmul a b => ruleGfmul a b s
  | .gfgen n => ruleGfgen n s
  | .rsenc k n => ruleRsenc k n s
  | .rssyn len n => ruleRssyn len n s
  | .rscor len n => ruleRscor len n s
  | .analyze => ruleAnalyze s
  | .pack => rulePack s
  | .rssplit => ruleRssplit s
  | .rsilv => ruleRsilv s
  | .matinit => ruleMatinit s
  | .matplace => ruleMatplace s
  | .maskeval => ruleMaskeval s
  | .masksel => ruleMasksel s
  | .infostamp => ruleInfostamp s
  | .encode => ruleEncode s
  | .fmtenc level mask => ruleFmtenc level mask s
  | .fmtdec raw => ruleFmtdec raw s
  | .verenc version => ruleVerenc version s
  | .verdec raw => ruleVerdec raw s

theorem exec_eq_command {i : Instr} (h : i ≠ .sreset) (s : State) :
    exec i s = .next (command i (operandsOk i s) (readyFor i s) (ruleOf i) s) := by
  cases i
  case sreset => exact (h rfl).elim
  all_goals exact rfl

theorem exec_sreset (s : State) : exec .sreset s = .next (complete (softReset s)) := rfl

/-- Every command ends in a next state. -/
theorem exec_next (i : Instr) (s : State) : ∃ t, exec i s = .next t := by
  by_cases h : i = .sreset
  · exact ⟨_, h ▸ exec_sreset s⟩
  · exact ⟨_, exec_eq_command h s⟩

theorem operandsOk_iff (i : Instr) (s : State) : operandsOk i s = true ↔ OperandsInRange i s := by
  cases i <;> simp [operandsOk, OperandsInRange, gfgenInRange, rsencInRange, blockInRange, versionInRange]

theorem readyFor_iff (i : Instr) (s : State) : readyFor i s = true ↔ Ready i s := by
  unfold readyFor Ready isValid
  cases requiredBit i <;> simp

/-- A stage command's rule is the stage's rule. -/
theorem ruleOf_stageCommand {k : Nat} (h1 : 1 ≤ k) (h9 : k ≤ 9) : ruleOf (stageCommand k) = stageRule k := by
  interval_cases k <;> rfl

/-- ENCODE whose checks pass and whose rule completes reports no error. -/
theorem after_encode_err {s t : State} (hh : s.halt = false) (hv : versionInRange s = true) (hg : isValid GFRDY s = true)
    (hd : ruleEncode s = .done t) : (after .encode s).err = false := by
  simp [after, exec, execEncode, command, hh, hv, hg, hd, conclude, complete]

/-! ### Sequences of rules (R302) -/

@[simp] theorem andThen_done (s : State) (next : State → RuleResult) : (RuleResult.done s).andThen next = next s := rfl

@[simp] theorem andThen_raised (e : Error) (s : State) (next : State → RuleResult) :
    (RuleResult.raised e s).andThen next = .raised e s := rfl

/-- A sequence completes exactly when its first rule does and the rest does from there. -/
theorem andThen_eq_done {r : RuleResult} {next : State → RuleResult} {t : State} :
    r.andThen next = .done t ↔ ∃ s, r = .done s ∧ next s = .done t := by
  cases r <;> simp [RuleResult.andThen]

/-- A sequence raises exactly when its first rule does, or the rest does from where that completed. -/
theorem andThen_eq_raised {r : RuleResult} {next : State → RuleResult} {e : Error} {t : State} :
    r.andThen next = .raised e t ↔ r = .raised e t ∨ ∃ s, r = .done s ∧ next s = .raised e t := by
  cases r <;> simp [RuleResult.andThen]

end Sys2Proof.Machine
end

