-- ==== Sys2Proof/Laws/Flags.lean ====
section
/-! SUPPORT. The bits of REG.VALID after clearing stages and marking a group valid (10_state.md R25). -/

namespace Sys2Proof.Machine

theorem validBit_getLsbD {k : Nat} (hk : k < 12) (j : Nat) : (validBit k).getLsbD j = decide (j = k) := by
  unfold validBit
  by_cases hj : j < 12
  · revert j k; decide
  · have : ¬ j = k := by omega
    simp [hj, this]

theorem stagesFrom_getLsbD {lo : Nat} (hlo : lo < 10) (j : Nat) :
    (stagesFrom lo).getLsbD j = decide (lo ≤ j ∧ j ≤ 9) := by
  unfold stagesFrom
  by_cases hj : j < 12
  · revert j lo; decide
  · have : ¬ (lo ≤ j ∧ j ≤ 9) := by omega
    simp only [this, decide_false]
    exact BitVec.getLsbD_of_ge _ _ (by omega)

/-! ### The masks as numbers -/

theorem not_stagesFrom_1 : ~~~stagesFrom 1 = 0xC01#12 := by decide
theorem not_stagesFrom_2 : ~~~stagesFrom 2 = 0xC03#12 := by decide
theorem not_stagesFrom_3 : ~~~stagesFrom 3 = 0xC07#12 := by decide
theorem not_stagesFrom_4 : ~~~stagesFrom 4 = 0xC0F#12 := by decide
theorem not_stagesFrom_5 : ~~~stagesFrom 5 = 0xC1F#12 := by decide
theorem not_stagesFrom_6 : ~~~stagesFrom 6 = 0xC3F#12 := by decide
theorem not_stagesFrom_7 : ~~~stagesFrom 7 = 0xC7F#12 := by decide
theorem not_stagesFrom_8 : ~~~stagesFrom 8 = 0xCFF#12 := by decide

/-! ### Single bits -/

theorem isValid_markValid {k : Nat} (hk : k < 12) (j : Nat) (s : State) :
    isValid j (markValid k s) = (isValid j s || decide (j = k)) := by
  simp [isValid, validBit_getLsbD hk]

theorem isValid_clearStages {lo : Nat} (hlo : lo < 10) (j : Nat) (s : State) :
    isValid j (clearStages lo s) = (isValid j s && !decide (lo ≤ j ∧ j ≤ 9)) := by
  unfold isValid
  by_cases hj : j < 12
  · simp only [clearStages_valid, BitVec.getLsbD_and, BitVec.getLsbD_not, stagesFrom_getLsbD hlo, hj, decide_true,
      Bool.true_and]
  · rw [BitVec.getLsbD_of_ge _ _ (by omega), BitVec.getLsbD_of_ge _ _ (by omega)]
    rfl

/-- `VALID[9:1] <- 0` leaves GFRDY as it is. -/
theorem isValid_gfrdy_clearStages {lo : Nat} (h0 : 0 < lo) (hlo : lo < 10) (s : State) :
    isValid GFRDY (clearStages lo s) = isValid GFRDY s := by
  rw [isValid_clearStages hlo]
  simp [GFRDY]
  omega

end Sys2Proof.Machine
end

