-- ==== Sys2Proof/Laws/Memory.lean ====
section
/-! SUPPORT. The memory of TEXT and BLK: read after write, frames, and the canonical form that every operation keeps. -/

namespace Sys2Proof.Machine

/-! ### One byte -/

theorem findCell_insertCell_same (a : Nat) (b : Byte) (m : Memory) : findCell a (insertCell a b m) = some b := by
  induction m with
  | nil => simp [insertCell, findCell]
  | cons c m ih =>
    unfold insertCell
    split
    · simp [findCell]
    · split
      · simp [findCell]
      · next h1 h2 => simp [findCell, Ne.symm h2, ih]

theorem findCell_insertCell_other {a a' : Nat} (h : a' ≠ a) (b : Byte) (m : Memory) :
    findCell a' (insertCell a b m) = findCell a' m := by
  induction m with
  | nil => simp [insertCell, findCell, h.symm]
  | cons c m ih =>
    unfold insertCell
    split
    · simp [findCell, h.symm]
    · split
      · next h2 => simp [findCell, h.symm, ← h2]
      · simp [findCell, ih]

theorem mem_insertCell {a : Nat} {b : Byte} {m : Memory} {c : Host.Cell} (h : c ∈ insertCell a b m) :
    c = (a, b) ∨ c ∈ m := by
  induction m with
  | nil => simpa [insertCell] using h
  | cons d m ih =>
    unfold insertCell at h
    split at h
    · simpa using h
    · split at h
      · simp only [List.mem_cons] at h ⊢
        tauto
      · simp only [List.mem_cons] at h ⊢
        rcases h with h | h
        · exact .inr (.inl h)
        · rcases ih h with h | h
          · exact .inl h
          · exact .inr (.inr h)

/-- A write keeps the canonical form. -/
theorem insertCell_wf {m : Memory} (h : m.wf) (a : Nat) (b : Byte) : (insertCell a b m).wf := by
  induction m with
  | nil => exact List.pairwise_singleton _ _
  | cons c m ih =>
    have hc := List.pairwise_cons.1 h
    unfold insertCell
    split
    · next h1 =>
      refine List.pairwise_cons.2 ⟨fun d hd => ?_, h⟩
      rcases List.mem_cons.1 hd with rfl | hd
      · exact h1
      · exact h1.trans (hc.1 d hd)
    · split
      · next h2 => exact List.pairwise_cons.2 ⟨fun d hd => h2 ▸ hc.1 d hd, hc.2⟩
      · next h1 h2 =>
        refine List.pairwise_cons.2 ⟨fun d hd => ?_, ih hc.2⟩
        rcases mem_insertCell hd with rfl | hd
        · show c.1 < a
          omega
        · exact hc.1 d hd

/-! ### Consecutive bytes -/

/-- A write of consecutive bytes keeps the canonical form. -/
theorem insertCells_wf (bs : List Byte) (a : Nat) {m : Memory} (h : m.wf) : (insertCells a bs m).wf := by
  induction bs generalizing a m with
  | nil => exact h
  | cons b bs ih => exact ih _ (insertCell_wf h a b)

theorem mem_insertCells (bs : List Byte) (a : Nat) {m : Memory} {c : Host.Cell} (h : c ∈ insertCells a bs m) :
    (a ≤ c.1 ∧ c.1 < a + bs.length) ∨ c ∈ m := by
  induction bs generalizing a m with
  | nil => exact .inr h
  | cons b bs ih =>
    rcases ih _ h with h | h
    · left
      simp only [List.length_cons]
      omega
    · rcases mem_insertCell h with rfl | h
      · left
        simp
      · exact .inr h

theorem findCell_insertCells_other (bs : List Byte) {a a' : Nat} (h : a' < a ∨ a + bs.length ≤ a') (m : Memory) :
    findCell a' (insertCells a bs m) = findCell a' m := by
  induction bs generalizing a m with
  | nil => rfl
  | cons b bs ih =>
    simp only [List.length_cons] at h
    rw [insertCells, ih (by omega), findCell_insertCell_other (by omega)]

theorem findCell_insertCells_at (bs : List Byte) (a : Nat) {i : Nat} (h : i < bs.length) (m : Memory) :
    findCell (a + i) (insertCells a bs m) = some bs[i] := by
  induction bs generalizing a i m with
  | nil => simp at h
  | cons b bs ih =>
    cases i with
    | zero =>
      rw [insertCells, Nat.add_zero, findCell_insertCells_other _ (by omega), findCell_insertCell_same]
      rfl
    | succ i =>
      rw [insertCells, show a + (i + 1) = a + 1 + i by omega, ih (a + 1) (by simpa using h)]
      rfl

/-! ### Through the state -/

theorem readByte_congr {s t : State} (hm : s.mem = t.mem) (he : s.memEpoch = t.memEpoch) (a : Nat) :
    readByte s a = readByte t a := by
  simp [readByte, hm, he]

@[simp] theorem readByte_writeByte_same (s : State) (a : Nat) (b : Byte) : readByte (writeByte a b s) a = b := by
  simp [readByte, findCell_insertCell_same]

theorem readByte_writeByte_other (s : State) {a a' : Nat} (h : a' ≠ a) (b : Byte) :
    readByte (writeByte a b s) a' = readByte s a' := by
  simp [readByte, findCell_insertCell_other h]

theorem readByte_writeBytes_at (s : State) (a : Nat) (bs : List Byte) {i : Nat} (h : i < bs.length) :
    readByte (writeBytes a bs s) (a + i) = bs[i] := by
  simp [readByte, findCell_insertCells_at bs a h]

theorem readByte_writeBytes_other (s : State) {a a' : Nat} (bs : List Byte) (h : a' < a ∨ a + bs.length ≤ a') :
    readByte (writeBytes a bs s) a' = readByte s a' := by
  simp [readByte, findCell_insertCells_other bs h]

@[simp] theorem readBytes_length (s : State) (a n : Nat) : (readBytes s a n).length = n := by
  simp [readBytes]

theorem readBytes_congr {s t : State} {a n : Nat} (h : ∀ i < n, readByte s (a + i) = readByte t (a + i)) :
    readBytes s a n = readBytes t a n :=
  List.map_congr_left fun i hi => h i (List.mem_range.1 hi)

/-- TEXT is unaffected by a write to BLK. -/
theorem textBytes_congr {s t : State} (hl : s.len = t.len)
    (h : ∀ a, textBase ≤ a → a < textBase + 8192 → readByte s a = readByte t a) : textBytes s = textBytes t := by
  unfold textBytes
  rw [hl]
  have hlen := t.len.isLt
  exact readBytes_congr fun i hi => h _ (by omega) (by omega)

end Sys2Proof.Machine
end

