-- ==== Sys2Proof/Laws/PerInstr.lean ====
section
/-! SUPPORT. The family OpcodeRow: the word of every command lies in its own row of the opcode map (30_encoding.md R85). -/

namespace Sys2Proof.Laws.OpcodeRow

/-- The match and the mask of the command's row, as R85 prints them. -/
def row : Instr → Word × Word
  | .nop => (0x00000000, 0xFFFFFFFF)
  | .sreset => (0x01000000, 0xFFFFFFFF)
  | .gfmul _ _ => (0x10000000, 0xFF0000FF)
  | .gfgen _ => (0x11000000, 0xFF00FFFF)
  | .rsenc _ _ => (0x20000000, 0xFF0000FF)
  | .rssyn _ _ => (0x21000000, 0xFF0000FF)
  | .rscor _ _ => (0x22000000, 0xFF0000FF)
  | .analyze => (0x30000000, 0xFFFFFFFF)
  | .pack => (0x31000000, 0xFFFFFFFF)
  | .rssplit => (0x32000000, 0xFFFFFFFF)
  | .rsilv => (0x33000000, 0xFFFFFFFF)
  | .matinit => (0x34000000, 0xFFFFFFFF)
  | .matplace => (0x35000000, 0xFFFFFFFF)
  | .maskeval => (0x36000000, 0xFFFFFFFF)
  | .masksel => (0x37000000, 0xFFFFFFFF)
  | .infostamp => (0x38000000, 0xFFFFFFFF)
  | .encode => (0x3F000000, 0xFFFFFFFF)
  | .fmtenc _ _ => (0x40000000, 0xFFFFFFE0)
  | .fmtdec _ => (0x41000000, 0xFFFF8000)
  | .verenc _ => (0x42000000, 0xFFFFFFC0)
  | .verdec _ => (0x43000000, 0xFFFC0000)

/-- The command's word selects its row: `(word & mask) = match`. -/
def Statement (i : Instr) : Prop := encode i &&& (row i).2 = (row i).1

/-- Masking a concatenation masks its parts. -/
theorem and_append {m n : Nat} (a c : BitVec m) (b d : BitVec n) : (a ++ b) &&& (c ++ d) = (a &&& c) ++ (b &&& d) := by
  ext i
  simp only [BitVec.getElem_and, BitVec.getElem_append]
  split <;> rfl

theorem wordAB_row (op a b : BitVec 8) : wordAB op a b &&& 0xFF0000FF = op ++ 0#24 := by
  have h : (0xFF0000FF : Word) = 0xFF#8 ++ 0#8 ++ 0#8 ++ 0xFF#8 := by decide
  have hop : op &&& 0xFF#8 = op := by
    have := BitVec.and_allOnes (x := op)
    exact this
  rw [h, wordAB, and_append, and_append, and_append, hop]
  simp
  revert op
  decide

theorem wordA_row (op a : BitVec 8) : wordA op a &&& 0xFF00FFFF = op ++ 0#24 := by
  have h : (0xFF00FFFF : Word) = 0xFF#8 ++ 0#8 ++ 0xFFFF#16 := by decide
  have hop : op &&& 0xFF#8 = op := BitVec.and_allOnes (x := op)
  rw [h, wordA, and_append, and_append, hop]
  simp
  revert op
  decide

theorem nop : Statement .nop := by unfold Statement; decide
theorem sreset : Statement .sreset := by unfold Statement; decide
theorem gfmul (a b : BitVec 8) : Statement (.gfmul a b) := (wordAB_row _ a b).trans (show 0x10#8 ++ 0#24 = (0x10000000 : Word) by decide)
theorem gfgen (n : BitVec 8) : Statement (.gfgen n) := (wordA_row _ n).trans (show 0x11#8 ++ 0#24 = (0x11000000 : Word) by decide)
theorem rsenc (k n : BitVec 8) : Statement (.rsenc k n) := (wordAB_row _ k n).trans (show 0x20#8 ++ 0#24 = (0x20000000 : Word) by decide)
theorem rssyn (len n : BitVec 8) : Statement (.rssyn len n) := (wordAB_row _ len n).trans (show 0x21#8 ++ 0#24 = (0x21000000 : Word) by decide)
theorem rscor (len n : BitVec 8) : Statement (.rscor len n) := (wordAB_row _ len n).trans (show 0x22#8 ++ 0#24 = (0x22000000 : Word) by decide)
theorem analyze : Statement .analyze := by unfold Statement; decide
theorem pack : Statement .pack := by unfold Statement; decide
theorem rssplit : Statement .rssplit := by unfold Statement; decide
theorem rsilv : Statement .rsilv := by unfold Statement; decide
theorem matinit : Statement .matinit := by unfold Statement; decide
theorem matplace : Statement .matplace := by unfold Statement; decide
theorem maskeval : Statement .maskeval := by unfold Statement; decide
theorem masksel : Statement .masksel := by unfold Statement; decide
theorem infostamp : Statement .infostamp := by unfold Statement; decide
theorem encode : Statement .encode := by unfold Statement; decide

theorem fmtenc (level : BitVec 2) (mask : BitVec 3) : Statement (.fmtenc level mask) := by
  revert level mask
  unfold Statement
  decide

theorem fmtdec (raw : BitVec 15) : Statement (.fmtdec raw) := by
  have h : (0xFFFF8000 : Word) = 0xFF#8 ++ 0x1FF#9 ++ 0#15 := by decide
  show (0x41#8 ++ 0#9 ++ raw) &&& (0xFFFF8000 : Word) = 0x41000000
  rw [h, and_append, BitVec.and_zero]
  decide

theorem verenc (version : BitVec 6) : Statement (.verenc version) := by
  revert version
  unfold Statement
  decide

theorem verdec (raw : BitVec 18) : Statement (.verdec raw) := by
  have h : (0xFFFC0000 : Word) = 0xFF#8 ++ 0x3F#6 ++ 0#18 := by decide
  show (0x43#8 ++ 0#6 ++ raw) &&& (0xFFFC0000 : Word) = 0x43000000
  rw [h, and_append, BitVec.and_zero]
  decide

end Sys2Proof.Laws.OpcodeRow
end

