-- ==== Sys2Proof/Laws/Port.lean ====
section
/-! SUPPORT. What one host event can do: a read changes the word read and the counter of free values only; a write stores one
element and may end the run; everything else is ignored (20_memory.md R60 to R63). -/

namespace Sys2Proof.Machine

theorem hostRead_known {s : State} {a : Addr} {w : Word} (h : elementAt s a = .known w) :
    hostRead a s = { s with hostData := w } := by
  simp [hostRead, h]

theorem hostRead_any {s : State} {a : Addr} {n : Nat} (h : elementAt s a = .any n) :
    hostRead a s =
      { s with hostData := ((Config.freeWord s.freeCtr).setWidth n).setWidth 32, freeCtr := s.freeCtr + 1 } := by
  simp [hostRead, h]

/-- Everything a host read can do. -/
theorem hostRead_cases (a : Addr) (s : State) : ∃ w n, hostRead a s = { s with hostData := w, freeCtr := n } := by
  cases h : elementAt s a with
  | known w => exact ⟨w, s.freeCtr, hostRead_known h⟩
  | any n => exact ⟨_, _, hostRead_any h⟩

/-- Everything a host write other than of `REG.CMD` can do. -/
theorem hostWrite_cases (a : Addr) (w : Word) (s : State) :
    hostWrite a w s = s ∨
    hostWrite a w s = endRun { s with version := w.setWidth 6 } ∨
    hostWrite a w s = endRun { s with level := w.setWidth 2 } ∨
    hostWrite a w s = endRun { s with len := w.setWidth 13 } ∨
    (∃ i, i < 8192 ∧ hostWrite a w s = endRun (writeByte (textBase + i) (w.setWidth 8) s)) ∨
    ∃ i, i < 256 ∧ hostWrite a w s = writeByte (blkBase + i) (w.setWidth 8) s := by
  unfold hostWrite
  dsimp only
  split
  · unfold writeRegister
    split
    · exact .inr (.inl rfl)
    · exact .inr (.inr (.inl rfl))
    · exact .inr (.inr (.inr (.inl rfl)))
    · exact .inl rfl
  · split
    · next h => exact .inr (.inr (.inr (.inr (.inl ⟨_, h, rfl⟩))))
    · exact .inl rfl
  · split
    · next h => exact .inr (.inr (.inr (.inr (.inr ⟨_, h, rfl⟩))))
    · exact .inl rfl
  · exact .inl rfl

/-- Everything one step can do: idle, a command, the rejection of a word that is none, a host read, another host write, reset. -/
theorem step_cases {s t : State} (h : step s = .next t) :
    (s.pending = [] ∧ t = s) ∨
    (∃ w rest i, s.pending = .write cmdAddr w :: rest ∧ decode w = .ok i ∧ exec i { s with pending := rest } = .next t) ∨
    (∃ w rest e, s.pending = .write cmdAddr w :: rest ∧ decode w = .error e ∧
      t = rejectWord w { s with pending := rest }) ∨
    (∃ a rest, s.pending = .read a :: rest ∧ t = hostRead a { s with pending := rest }) ∨
    (∃ a w rest, s.pending = .write a w :: rest ∧ a ≠ cmdAddr ∧ t = hostWrite a w { s with pending := rest }) ∨
    (∃ rest, s.pending = .reset :: rest ∧ t = hardReset { s with pending := rest }) := by
  unfold step at h
  split at h
  · next hp => exact .inl ⟨hp, by injection h with h; exact h.symm⟩
  · next e rest hp =>
    cases e with
    | read a => exact .inr (.inr (.inr (.inl ⟨a, rest, hp, by injection h with h; exact h.symm⟩)))
    | reset => exact .inr (.inr (.inr (.inr (.inr ⟨rest, hp, by injection h with h; exact h.symm⟩))))
    | write a w =>
      by_cases ha : a = cmdAddr
      · subst ha
        simp only [hostEvent, if_true, commandWord] at h
        cases hd : decode w with
        | ok i => exact .inr (.inl ⟨w, rest, i, hp, hd, by rw [hd] at h; exact h⟩)
        | error e =>
          rw [hd] at h
          exact .inr (.inr (.inl ⟨w, rest, e, hp, hd, by injection h with h; exact h.symm⟩))
      · simp only [hostEvent, if_neg ha] at h
        exact .inr (.inr (.inr (.inr (.inl ⟨a, w, rest, hp, ha, by injection h with h; exact h.symm⟩))))

end Sys2Proof.Machine
end

