-- ==== Sys2Proof/Laws/Rasterizer.lean ====
section
/-! SUPPORT. Which cells MATINIT types data, by plain comparisons of their coordinates (44_matrix_rasterizer.md R192 to R202):
what a count of data cells or an account of the scan order starts from. -/

namespace Sys2Proof.Machine

/-- A list of stamps touches a cell exactly when one of them does. -/
theorem lastStamp_eq_none {stamps : List Stamp} : lastStamp stamps = none ↔ ∀ x ∈ stamps, x = none := by
  have h : ∀ (l : List Stamp) (a : Stamp), l.foldl (fun old new => new.or old) a = none ↔ a = none ∧ ∀ x ∈ l, x = none := by
    intro l
    induction l with
    | nil => simp
    | cons y ys ih =>
      intro a
      rw [List.foldl_cons, ih]
      cases y <;> simp
  simpa [lastStamp] using h stamps none

theorem finderAt_eq_none {r0 c0 r c : Nat} :
    finderAt r0 c0 r c = none ↔ ¬ (r0 ≤ r ∧ r ≤ r0 + 6 ∧ c0 ≤ c ∧ c ≤ c0 + 6) := by
  unfold finderAt
  split <;> simp_all

/-- A finder with its separator covers the offsets −1 to 7. -/
theorem separatorAt_eq_none {r0 c0 r c : Nat} (h : finderAt r0 c0 r c = none) :
    separatorAt r0 c0 r c = none ↔ ¬ (r0 ≤ r + 1 ∧ r ≤ r0 + 7 ∧ c0 ≤ c + 1 ∧ c ≤ c0 + 7) := by
  unfold separatorAt
  simp [h]

theorem alignmentAt_eq_none {cr cc r c : Nat} :
    alignmentAt cr cc r c = none ↔ ¬ (absDiff r cr ≤ 2 ∧ absDiff c cc ≤ 2) := by
  unfold alignmentAt
  split <;> simp_all

theorem timingAt_eq_none {size r c : Nat} :
    timingAt size r c = none ↔ ¬ (r = 6 ∧ 8 ≤ c ∧ c + 9 ≤ size) ∧ ¬ (c = 6 ∧ 8 ≤ r ∧ r + 9 ≤ size) := by
  unfold timingAt
  split
  · simp_all
  · split <;> simp_all

theorem mem_fmt1Cells {r c : Nat} : (r, c) ∈ fmt1Cells ↔ (r = 8 ∧ c ≤ 8 ∧ c ≠ 6) ∨ (c = 8 ∧ r ≤ 8 ∧ r ≠ 6) := by
  simp only [fmt1Cells, List.mem_cons, Prod.mk.injEq, List.not_mem_nil, or_false]
  omega

theorem mem_fmt2Cells {size r c : Nat} (hs : 21 ≤ size) :
    (r, c) ∈ fmt2Cells size ↔ (c = 8 ∧ size ≤ r + 7 ∧ r < size) ∨ (r = 8 ∧ size ≤ c + 8 ∧ c < size) := by
  obtain ⟨n, rfl⟩ := Nat.exists_eq_add_of_le' hs
  have h : fmt2Cells (n + 21) =
      (List.range 7).map (fun i => (n + 20 - i, 8)) ++ (List.range 8).map (fun i => (8, n + 13 + i)) := rfl
  simp only [h, List.mem_append, List.mem_map, List.mem_range, Prod.mk.injEq]
  constructor
  · rintro (⟨i, hi, rfl, rfl⟩ | ⟨i, hi, rfl, rfl⟩) <;> omega
  · rintro (⟨rfl, h1, h2⟩ | ⟨rfl, h1, h2⟩)
    · exact .inl ⟨n + 20 - r, by omega, by omega, rfl⟩
    · exact .inr ⟨c - (n + 13), by omega, rfl, by omega⟩

theorem mem_versionCells {size r c : Nat} (hs : 21 ≤ size) :
    (r, c) ∈ versionCells size ↔
      (r ≤ 5 ∧ size ≤ c + 11 ∧ c + 9 ≤ size) ∨ (c ≤ 5 ∧ size ≤ r + 11 ∧ r + 9 ≤ size) := by
  simp only [versionCells, versionCell, List.mem_append, List.mem_map, List.mem_range, Prod.mk.injEq, Prod.swap]
  constructor
  · rintro (⟨i, hi, rfl, rfl⟩ | ⟨i, hi, rfl, rfl⟩) <;> omega
  · rintro (⟨h1, h2, h3⟩ | ⟨h1, h2, h3⟩)
    · exact .inl ⟨3 * r + (c + 11 - size), by omega, by omega, by omega⟩
    · exact .inr ⟨3 * c + (r + 11 - size), by omega, by omega, by omega⟩

/-- The cells MATINIT types data: off the three corners with finder, separator and format strip, off row 6 and column 6, off the
version blocks from version 7 on, and off every alignment pattern. -/
theorem functionCell_data_iff {v r c : Nat} (coords : List Nat) (hv : 1 ≤ v) (hr : r < matrixSize v) (hc : c < matrixSize v) :
    (functionCell v coords r c).2 = .data ↔
      ¬ (r ≤ 8 ∧ c ≤ 8) ∧ ¬ (r ≤ 8 ∧ matrixSize v ≤ c + 8) ∧ ¬ (matrixSize v ≤ r + 8 ∧ c ≤ 8) ∧ r ≠ 6 ∧ c ≠ 6 ∧
      ¬ (7 ≤ v ∧ r ≤ 5 ∧ matrixSize v ≤ c + 11 ∧ c + 9 ≤ matrixSize v) ∧
      ¬ (7 ≤ v ∧ c ≤ 5 ∧ matrixSize v ≤ r + 11 ∧ r + 9 ≤ matrixSize v) ∧
      ∀ p ∈ alignmentCentres (matrixSize v) coords, ¬ (absDiff r p.1 ≤ 2 ∧ absDiff c p.2 ≤ 2) := by
  have hs : 21 ≤ matrixSize v := by unfold matrixSize; omega
  have ha : lastStamp ((alignmentCentres (matrixSize v) coords).map fun p => alignmentAt p.1 p.2 r c) = none ↔
      ∀ p ∈ alignmentCentres (matrixSize v) coords, ¬ (absDiff r p.1 ≤ 2 ∧ absDiff c p.2 ≤ 2) := by
    simp only [lastStamp_eq_none, List.mem_map, forall_exists_index, and_imp, forall_apply_eq_imp_iff₂, alignmentAt_eq_none]
  have hf : lastStamp ((finderCorners (matrixSize v)).map fun p => finderAt p.1 p.2 r c) = none ↔
      ¬ (r ≤ 6 ∧ c ≤ 6) ∧ ¬ (r ≤ 6 ∧ matrixSize v ≤ c + 7) ∧ ¬ (matrixSize v ≤ r + 7 ∧ c ≤ 6) := by
    simp only [lastStamp_eq_none, finderCorners, List.map_cons, List.map_nil, List.forall_mem_cons, List.not_mem_nil,
      false_imp_iff, implies_true, and_true, finderAt_eq_none]
    omega
  have hp : lastStamp ((finderCorners (matrixSize v)).map fun p => separatorAt p.1 p.2 r c) = none →
      lastStamp ((finderCorners (matrixSize v)).map fun p => finderAt p.1 p.2 r c) = none →
      ¬ (r ≤ 7 ∧ c ≤ 7) ∧ ¬ (r ≤ 7 ∧ matrixSize v ≤ c + 8) ∧ ¬ (matrixSize v ≤ r + 8 ∧ c ≤ 7) := by
    simp only [lastStamp_eq_none, finderCorners, List.map_cons, List.map_nil, List.forall_mem_cons, List.not_mem_nil,
      false_imp_iff, implies_true, and_true]
    rintro ⟨h1, h2, h3⟩ ⟨g1, g2, g3⟩
    rw [separatorAt_eq_none g1] at h1
    rw [separatorAt_eq_none g2] at h2
    rw [separatorAt_eq_none g3] at h3
    omega
  have hq : ¬ (r ≤ 7 ∧ c ≤ 7) ∧ ¬ (r ≤ 7 ∧ matrixSize v ≤ c + 8) ∧ ¬ (matrixSize v ≤ r + 8 ∧ c ≤ 7) →
      lastStamp ((finderCorners (matrixSize v)).map fun p => separatorAt p.1 p.2 r c) = none := by
    intro h
    simp only [lastStamp_eq_none, finderCorners, List.map_cons, List.map_nil, List.forall_mem_cons, List.not_mem_nil,
      false_imp_iff, implies_true, and_true]
    refine ⟨?_, ?_, ?_⟩ <;> rw [separatorAt_eq_none (finderAt_eq_none.mpr (by omega))] <;> omega
  simp only [functionCell, mem_versionCells hs, mem_fmt1Cells, mem_fmt2Cells hs]
  split
  · simp; omega
  split
  · simp; omega
  split
  · simp; omega
  split
  · next h =>
    simp only [reduceCtorEq, false_iff]
    rintro ⟨-, -, -, -, -, -, -, h'⟩
    rw [ha.mpr h'] at h
    cases h
  next h =>
  have h8 := ha.mp h
  split
  · next h =>
    simp only [reduceCtorEq, false_iff]
    rintro ⟨h1, h2, h3, h4, h5, -⟩
    rw [timingAt_eq_none.mpr (by omega)] at h
    cases h
  next ht =>
  have h7 := timingAt_eq_none.mp ht
  split
  · next h =>
    simp only [reduceCtorEq, false_iff]
    rintro ⟨h1, h2, h3, h4, h5, -⟩
    rw [hq (by omega)] at h
    cases h
  next hsep =>
  split
  · next h =>
    simp only [reduceCtorEq, false_iff]
    rintro ⟨h1, h2, h3, h4, h5, -⟩
    rw [hf.mpr (by omega)] at h
    cases h
  next hfin =>
  have h6 := hp hsep hfin
  simp only [true_iff]
  refine ⟨?_, ?_, ?_, ?_, ?_, ?_, ?_, h8⟩ <;> omega

/-! ### Counting data cells a row at a time, each row a number whose bits are its cells -/

/-- The cells `a` to `b − 1` of a row as the bits of a number. -/
def segment (a b : Nat) : Nat := (2 ^ (b - a) - 1) <<< a

theorem testBit_segment {a b i : Nat} : (segment a b).testBit i = decide (a ≤ i ∧ i < b) := by
  rw [segment, Nat.testBit_shiftLeft, Nat.testBit_two_pow_sub_one, Bool.eq_iff_iff]
  simp only [Bool.and_eq_true, decide_eq_true_eq]
  omega

/-- The cells of several segments of a row. -/
def cover (l : List (Nat × Nat)) : Nat := l.foldr (fun p m => segment p.1 p.2 ||| m) 0

theorem testBit_cover {l : List (Nat × Nat)} {i : Nat} :
    (cover l).testBit i = true ↔ ∃ p ∈ l, p.1 ≤ i ∧ i < p.2 := by
  induction l with
  | nil => simp [cover]
  | cons p l ih =>
    have h : cover (p :: l) = segment p.1 p.2 ||| cover l := rfl
    rw [h, Nat.testBit_or, Bool.or_eq_true, ih, testBit_segment]
    simp

/-- The segments of row `r` that hold functional cells. -/
def rowSegments (v : Nat) (centres : List (Nat × Nat)) (r : Nat) : List (Nat × Nat) :=
  (6, 7) :: (if r ≤ 8 ∨ matrixSize v ≤ r + 8 then [(0, 9)] else [])
    ++ (if r ≤ 8 then [(matrixSize v - 8, matrixSize v)] else [])
    ++ (if r = 6 then [(0, matrixSize v)] else [])
    ++ (if 7 ≤ v ∧ r ≤ 5 then [(matrixSize v - 11, matrixSize v - 8)] else [])
    ++ (if 7 ≤ v ∧ matrixSize v ≤ r + 11 ∧ r + 9 ≤ matrixSize v then [(0, 6)] else [])
    ++ (centres.filter fun p => Nat.ble (absDiff r p.1) 2).map fun p => (p.2 - 2, p.2 + 3)

theorem mem_if_singleton {α : Type} {p : Prop} [Decidable p] {x y : α} : x ∈ (if p then [y] else []) ↔ p ∧ x = y := by
  split <;> simp_all

theorem mem_rowSegments {v r : Nat} {centres : List (Nat × Nat)} {q : Nat × Nat} :
    q ∈ rowSegments v centres r ↔
      q = (6, 7) ∨ ((r ≤ 8 ∨ matrixSize v ≤ r + 8) ∧ q = (0, 9)) ∨ (r ≤ 8 ∧ q = (matrixSize v - 8, matrixSize v)) ∨
      (r = 6 ∧ q = (0, matrixSize v)) ∨ ((7 ≤ v ∧ r ≤ 5) ∧ q = (matrixSize v - 11, matrixSize v - 8)) ∨
      ((7 ≤ v ∧ matrixSize v ≤ r + 11 ∧ r + 9 ≤ matrixSize v) ∧ q = (0, 6)) ∨
      ∃ p ∈ centres, absDiff r p.1 ≤ 2 ∧ (p.2 - 2, p.2 + 3) = q := by
  simp only [rowSegments, List.cons_append, List.mem_cons, List.mem_append, mem_if_singleton, List.mem_map, List.mem_filter,
    Nat.ble_eq, and_assoc, or_assoc]

/-- A cell is typed data exactly when no segment of its row covers it. -/
theorem functionCell_data_iff_cover {v r c : Nat} (coords : List Nat) (hv : 1 ≤ v) (hr : r < matrixSize v)
    (hc : c < matrixSize v) :
    (functionCell v coords r c).2 = .data ↔
      (cover (rowSegments v (alignmentCentres (matrixSize v) coords) r)).testBit c = false := by
  have hs : 21 ≤ matrixSize v := by unfold matrixSize; omega
  rw [functionCell_data_iff coords hv hr hc, ← Bool.not_eq_true, testBit_cover]
  constructor
  · rintro ⟨h1, h2, h3, h4, h5, h6, h7, h8⟩ ⟨q, hq, ha, hb⟩
    rcases mem_rowSegments.mp hq with rfl | ⟨g, rfl⟩ | ⟨g, rfl⟩ | ⟨g, rfl⟩ | ⟨g, rfl⟩ | ⟨g, rfl⟩ | ⟨p, hp, hpr, rfl⟩
    case inr.inr.inr.inr.inr.inr => exact h8 p hp ⟨hpr, by dsimp at ha hb; unfold absDiff; omega⟩
    all_goals dsimp at ha hb; omega
  · intro h
    have seg : ∀ a b : Nat, (a, b) ∈ rowSegments v (alignmentCentres (matrixSize v) coords) r → ¬ (a ≤ c ∧ c < b) :=
      fun a b hm hab => h ⟨_, hm, hab⟩
    have m1 := seg 6 7 (mem_rowSegments.mpr (.inl rfl))
    have m2 : (r ≤ 8 ∨ matrixSize v ≤ r + 8) → ¬ (0 ≤ c ∧ c < 9) := fun g =>
      seg _ _ (mem_rowSegments.mpr (.inr (.inl ⟨g, rfl⟩)))
    have m3 : r ≤ 8 → ¬ (matrixSize v - 8 ≤ c ∧ c < matrixSize v) := fun g =>
      seg _ _ (mem_rowSegments.mpr (.inr (.inr (.inl ⟨g, rfl⟩))))
    have m4 : r = 6 → ¬ (0 ≤ c ∧ c < matrixSize v) := fun g =>
      seg _ _ (mem_rowSegments.mpr (.inr (.inr (.inr (.inl ⟨g, rfl⟩)))))
    have m5 : 7 ≤ v ∧ r ≤ 5 → ¬ (matrixSize v - 11 ≤ c ∧ c < matrixSize v - 8) := fun g =>
      seg _ _ (mem_rowSegments.mpr (.inr (.inr (.inr (.inr (.inl ⟨g, rfl⟩))))))
    have m6 : 7 ≤ v ∧ matrixSize v ≤ r + 11 ∧ r + 9 ≤ matrixSize v → ¬ (0 ≤ c ∧ c < 6) := fun g =>
      seg _ _ (mem_rowSegments.mpr (.inr (.inr (.inr (.inr (.inr (.inl ⟨g, rfl⟩)))))))
    refine ⟨by omega, by omega, by omega, by omega, by omega, by omega, by omega, fun p hp hpr => ?_⟩
    refine seg _ _ (mem_rowSegments.mpr (.inr (.inr (.inr (.inr (.inr (.inr ⟨p, hp, hpr.1, rfl⟩))))))) ?_
    have h2 := hpr.2
    unfold absDiff at h2
    omega

/-- The data cells of a matrix, counted by the bits of its rows. -/
def dataCount (size v : Nat) (centres : List (Nat × Nat)) : Nat :=
  ((List.range size).map fun r => (List.range size).countP fun c => !(cover (rowSegments v centres r)).testBit c).sum

/-- The number of data cells of a version's matrix, in a form the kernel evaluates quickly. -/
theorem countData_typeGrid {v : Nat} (coords : List Nat) (hv : 1 ≤ v) :
    countData (typeGrid v coords) = dataCount (matrixSize v) v (alignmentCentres (matrixSize v) coords) := by
  simp only [countData, typeGrid, buildGrid, dataCount, List.map_map, Function.comp_def, List.countP_map]
  congr 1
  refine List.map_congr_left fun r hr => List.countP_congr fun c hc => ?_
  simp only [beq_iff_eq, Bool.not_eq_true']
  exact functionCell_data_iff_cover coords hv (List.mem_range.mp hr) (List.mem_range.mp hc)

end Sys2Proof.Machine
end

