-- ==== Sys2Proof/Laws/Stages.lean ====
section
/-! SUPPORT. The state each stage rule ends in when it completes, when it completes, and the state at the end of the nine
(48_sequencer.md R302). -/

namespace Sys2Proof.Machine

/-- The state ANALYZE completes in. -/
def analyzedState (s : State) : State := markValid ANALYZED (recordAnalysis s)

/-- The state PACK completes in. -/
def packedState (s : State) : State :=
  markValid PACKED { clearStages PACKED s with
    usedbits := BitVec.ofNat 15 (usedStream s.mode s.version.toNat (textBytes s)).length
    bits := packedStream (currentCap s) (usedStream s.mode s.version.toNat (textBytes s))
    capbits := BitVec.ofNat 15 (currentCap s)
    ndcw := BitVec.ofNat 12 (currentCap s / 8)
    dcw := sliceCodewords (currentCap s / 8)
      (packedStream (currentCap s) (usedStream s.mode s.version.toNat (textBytes s))) }

/-- The state RSSPLIT completes in. -/
def splitState (s : State) : State :=
  markValid SPLIT { clearStages SPLIT s with
    dblk := cutBlocks (blockLengths (currentPlan s).groups) s.dcw
    eblk := (cutBlocks (blockLengths (currentPlan s).groups) s.dcw).map fun d => rsecc d (currentPlan s).ec
    nblk := BitVec.ofNat 7 (cutBlocks (blockLengths (currentPlan s).groups) s.dcw).length
    nec := BitVec.ofNat 8 (currentPlan s).ec }

/-- The state RSILV completes in. -/
def interleavedState (s : State) : State :=
  markValid ILV { clearStages ILV s with
    icw := interleave (s.dblk.take s.nblk.toNat) (s.eblk.take s.nblk.toNat)
    nicw := BitVec.ofNat 12 (s.ndcw.toNat + s.nblk.toNat * s.nec.toNat) }

/-- The state MATINIT completes in. -/
def initialisedState (s : State) : State :=
  markValid MINIT { clearStages MINIT s with
    mtype := typeGrid s.version.toNat (alignOf s.rom s.version.toNat)
    mfunc := functionGrid s.version.toNat (alignOf s.rom s.version.toNat)
    size := BitVec.ofNat 8 (matrixSize s.version.toNat)
    ndata := BitVec.ofNat 15 (countData (typeGrid s.version.toNat (alignOf s.rom s.version.toNat))) }

/-- The state MATPLACE completes in. -/
def placedState (s : State) : State :=
  markValid PLACED { clearStages PLACED s with
    mpre := placeBits s.mfunc (scanOrder s.mtype s.size.toNat)
      (placementStream (s.icw.take s.nicw.toNat) (s.ndata.toNat - 8 * s.nicw.toNat)) }

/-- The state MASKEVAL completes in. -/
def evaluatedState (s : State) : State :=
  markValid EVALD { clearStages EVALD s with
    mcand := candidates s, pen := (candidates s).map (penaltyOf s.size.toNat) }

/-- The state MASKSEL completes in. -/
def selectedState (s : State) : State :=
  markValid SELD { clearStages SELD s with masksel := BitVec.ofNat 3 (selectMask (maskTotals s)) }

/-- The state INFOSTAMP completes in. -/
def stampedState (s : State) : State :=
  markValid STAMPED { s with
    formatinfo := fmtcode s.level s.masksel
    versioninfo := if 7 ≤ s.version.toNat then some (vercode s.version) else none
    mfinal := match (if 7 ≤ s.version.toNat then some (vercode s.version) else none) with
      | some v => stampVersion (stampFormat (selectedCandidate s) (matrixSize s.version.toNat) (fmtcode s.level s.masksel))
          (matrixSize s.version.toNat) v
      | none => stampFormat (selectedCandidate s) (matrixSize s.version.toNat) (fmtcode s.level s.masksel) }

/-- The premise of MATPLACE: the stream and the data cells match (R205). -/
def remainderOk (s : State) : Prop := 8 * s.nicw.toNat ≤ s.ndata.toNat ∧ s.ndata.toNat - 8 * s.nicw.toNat ≤ 7

theorem ruleAnalyze_done {s : State} (h : textFits s = true) : ruleAnalyze s = .done (analyzedState s) := by
  rw [ruleAnalyze, if_pos h]
  exact rfl

theorem rulePack_done (s : State) : rulePack s = .done (packedState s) := rfl

theorem ruleRssplit_done {s : State} (h : planData (currentPlan s).groups = s.ndcw.toNat) :
    ruleRssplit s = .done (splitState s) := by
  rw [ruleRssplit, if_neg (not_not_intro h)]
  exact rfl

theorem ruleRsilv_done (s : State) : ruleRsilv s = .done (interleavedState s) := rfl

theorem ruleMatinit_done (s : State) : ruleMatinit s = .done (initialisedState s) := rfl

theorem ruleMatplace_done {s : State} (h : remainderOk s) : ruleMatplace s = .done (placedState s) := by
  have h' : ¬ (s.ndata.toNat < 8 * s.nicw.toNat ∨ 7 < s.ndata.toNat - 8 * s.nicw.toNat) := by
    obtain ⟨h1, h2⟩ := h
    omega
  rw [ruleMatplace, if_neg h']
  exact rfl

theorem ruleMaskeval_done (s : State) : ruleMaskeval s = .done (evaluatedState s) := rfl

theorem ruleMasksel_done (s : State) : ruleMasksel s = .done (selectedState s) := rfl

theorem ruleInfostamp_done (s : State) : ruleInfostamp s = .done (stampedState s) := rfl

/-! ### The nine stages -/

/-- The state after the first five stages. -/
def firstStages (s : State) : State := initialisedState (interleavedState (splitState (packedState (analyzedState s))))

/-- The state after all nine. -/
def allStages (s : State) : State := stampedState (selectedState (evaluatedState (placedState (firstStages s))))

/-- The nine rules complete where the text fits, the plan adds up and the stream matches the data cells. -/
theorem stageSequence_done {s : State} (ht : textFits s = true)
    (hp : planData (currentPlan s).groups = (BitVec.ofNat 12 (currentCap s / 8)).toNat)
    (hr : remainderOk (firstStages s)) : stageSequence s = .done (allStages s) := by
  unfold stageSequence
  rw [ruleAnalyze_done ht, andThen_done, rulePack_done, andThen_done, ruleRssplit_done (by exact hp), andThen_done,
    ruleRsilv_done, andThen_done, ruleMatinit_done, andThen_done]
  rw [ruleMatplace_done (by exact hr), andThen_done, ruleMaskeval_done, andThen_done, ruleMasksel_done, andThen_done,
    ruleInfostamp_done]
  exact rfl

/-! ### When a stage's rule leaves the state as it is (R24): its outputs are what the rule writes -/

/-- The rule of stage `k` completes and changes no register and no buffer: what `Coherent` says of a set bit. -/
def Honest (rule : State → RuleResult) (s : State) : Prop :=
  ∃ t, rule s = .done t ∧ { t with valid := s.valid, held := s.held } = s

theorem honest_analyze {s : State} (ht : textFits s = true) (hm : modeIndicator (analyzedMode s) = s.mode)
    (hn : kanjiText (textBytes s) = s.notice) (hv : BitVec.ofNat 6 ((analyzedMinimum s).getD 40) = s.minver)
    (ha : (analyzedMinimum s).isSome = s.anvalid) : Honest ruleAnalyze s := by
  refine ⟨_, ruleAnalyze_done ht, ?_⟩
  show { s with
    mode := modeIndicator (analyzedMode s), notice := kanjiText (textBytes s)
    minver := BitVec.ofNat 6 ((analyzedMinimum s).getD 40), anvalid := (analyzedMinimum s).isSome } = s
  rw [hm, hn, hv, ha]

theorem honest_pack {s : State}
    (hu : BitVec.ofNat 15 (usedStream s.mode s.version.toNat (textBytes s)).length = s.usedbits)
    (hb : packedStream (currentCap s) (usedStream s.mode s.version.toNat (textBytes s)) = s.bits)
    (hc : BitVec.ofNat 15 (currentCap s) = s.capbits) (hn : BitVec.ofNat 12 (currentCap s / 8) = s.ndcw)
    (hd : sliceCodewords (currentCap s / 8) s.bits = s.dcw) : Honest rulePack s := by
  refine ⟨_, rulePack_done s, ?_⟩
  show { s with
    usedbits := BitVec.ofNat 15 (usedStream s.mode s.version.toNat (textBytes s)).length
    bits := packedStream (currentCap s) (usedStream s.mode s.version.toNat (textBytes s))
    capbits := BitVec.ofNat 15 (currentCap s), ndcw := BitVec.ofNat 12 (currentCap s / 8)
    dcw := sliceCodewords (currentCap s / 8)
      (packedStream (currentCap s) (usedStream s.mode s.version.toNat (textBytes s))) } = s
  rw [hu, hb, hc, hn, hd]

theorem honest_rssplit {s : State} (hp : planData (currentPlan s).groups = s.ndcw.toNat)
    (hd : cutBlocks (blockLengths (currentPlan s).groups) s.dcw = s.dblk)
    (he : (s.dblk.map fun d => rsecc d (currentPlan s).ec) = s.eblk)
    (hn : BitVec.ofNat 7 s.dblk.length = s.nblk) (hc : BitVec.ofNat 8 (currentPlan s).ec = s.nec) :
    Honest ruleRssplit s := by
  refine ⟨_, ruleRssplit_done hp, ?_⟩
  show { s with
    dblk := cutBlocks (blockLengths (currentPlan s).groups) s.dcw
    eblk := (cutBlocks (blockLengths (currentPlan s).groups) s.dcw).map fun d => rsecc d (currentPlan s).ec
    nblk := BitVec.ofNat 7 (cutBlocks (blockLengths (currentPlan s).groups) s.dcw).length
    nec := BitVec.ofNat 8 (currentPlan s).ec } = s
  rw [hd, he, hn, hc]

theorem honest_rsilv {s : State} (hi : interleave (s.dblk.take s.nblk.toNat) (s.eblk.take s.nblk.toNat) = s.icw)
    (hn : BitVec.ofNat 12 (s.ndcw.toNat + s.nblk.toNat * s.nec.toNat) = s.nicw) : Honest ruleRsilv s := by
  refine ⟨_, ruleRsilv_done s, ?_⟩
  show { s with
    icw := interleave (s.dblk.take s.nblk.toNat) (s.eblk.take s.nblk.toNat)
    nicw := BitVec.ofNat 12 (s.ndcw.toNat + s.nblk.toNat * s.nec.toNat) } = s
  rw [hi, hn]

theorem honest_matinit {s : State} (ht : typeGrid s.version.toNat (alignOf s.rom s.version.toNat) = s.mtype)
    (hf : functionGrid s.version.toNat (alignOf s.rom s.version.toNat) = s.mfunc)
    (hs : BitVec.ofNat 8 (matrixSize s.version.toNat) = s.size) (hn : BitVec.ofNat 15 (countData s.mtype) = s.ndata) :
    Honest ruleMatinit s := by
  refine ⟨_, ruleMatinit_done s, ?_⟩
  show { s with
    mtype := typeGrid s.version.toNat (alignOf s.rom s.version.toNat)
    mfunc := functionGrid s.version.toNat (alignOf s.rom s.version.toNat)
    size := BitVec.ofNat 8 (matrixSize s.version.toNat)
    ndata := BitVec.ofNat 15 (countData (typeGrid s.version.toNat (alignOf s.rom s.version.toNat))) } = s
  rw [ht, hf, hs, hn]

theorem honest_matplace {s : State} (hr : remainderOk s)
    (hm : placeBits s.mfunc (scanOrder s.mtype s.size.toNat)
      (placementStream (s.icw.take s.nicw.toNat) (s.ndata.toNat - 8 * s.nicw.toNat)) = s.mpre) :
    Honest ruleMatplace s := by
  refine ⟨_, ruleMatplace_done hr, ?_⟩
  show { s with
    mpre := placeBits s.mfunc (scanOrder s.mtype s.size.toNat)
      (placementStream (s.icw.take s.nicw.toNat) (s.ndata.toNat - 8 * s.nicw.toNat)) } = s
  rw [hm]

theorem honest_maskeval {s : State} (hc : candidates s = s.mcand) (hp : s.mcand.map (penaltyOf s.size.toNat) = s.pen) :
    Honest ruleMaskeval s := by
  refine ⟨_, ruleMaskeval_done s, ?_⟩
  show { s with mcand := candidates s, pen := (candidates s).map (penaltyOf s.size.toNat) } = s
  rw [hc, hp]

theorem honest_masksel {s : State} (hm : BitVec.ofNat 3 (selectMask (maskTotals s)) = s.masksel) :
    Honest ruleMasksel s := by
  refine ⟨_, ruleMasksel_done s, ?_⟩
  show { s with masksel := BitVec.ofNat 3 (selectMask (maskTotals s)) } = s
  rw [hm]

theorem honest_infostamp {s : State} (hf : fmtcode s.level s.masksel = s.formatinfo)
    (hv : (if 7 ≤ s.version.toNat then some (vercode s.version) else none) = s.versioninfo)
    (hm : (match s.versioninfo with
      | some v => stampVersion (stampFormat (selectedCandidate s) (matrixSize s.version.toNat) s.formatinfo)
          (matrixSize s.version.toNat) v
      | none => stampFormat (selectedCandidate s) (matrixSize s.version.toNat) s.formatinfo) = s.mfinal) :
    Honest ruleInfostamp s := by
  refine ⟨_, ruleInfostamp_done s, ?_⟩
  show { s with
    formatinfo := fmtcode s.level s.masksel
    versioninfo := if 7 ≤ s.version.toNat then some (vercode s.version) else none
    mfinal := match (if 7 ≤ s.version.toNat then some (vercode s.version) else none) with
      | some v => stampVersion (stampFormat (selectedCandidate s) (matrixSize s.version.toNat) (fmtcode s.level s.masksel))
          (matrixSize s.version.toNat) v
      | none => stampFormat (selectedCandidate s) (matrixSize s.version.toNat) (fmtcode s.level s.masksel) } = s
  rw [hv, hf, hm]

end Sys2Proof.Machine
end

