-- ==== Sys2Proof/Laws/Tables.lean ====
section
/-! SUPPORT. What well-formed tables (49_config_tables.md R322, R323) give a run at one version and level. -/

namespace Sys2Proof.Machine

/-- Well-formed tables fit every version 1 to 40 and level. -/
theorem TablesWellFormed.tablesFit {s : State} (h : TablesWellFormed s.rom) (h1 : 1 ≤ s.version.toNat)
    (h40 : s.version.toNat ≤ 40) : TablesFit s :=
  ⟨h.plan _ h1 h40 _, h.fit _ h1 h40 _, h.cap _ h1 h40 _⟩

/-- The maximum over all symbols is at least each of them. -/
theorem le_maxOverSymbols (f : Nat → BitVec 2 → Nat) {v : Nat} (h1 : 1 ≤ v) (h40 : v ≤ 40) (lc : BitVec 2) :
    f v lc ≤ maxOverSymbols f := by
  have hfold : ∀ (l : List Nat) (a : Nat), a ≤ l.foldl max a ∧ ∀ x ∈ l, x ≤ l.foldl max a := by
    intro l
    induction l with
    | nil => simp
    | cons y ys ih =>
      intro a
      obtain ⟨h, h'⟩ := ih (max a y)
      refine ⟨le_trans (le_max_left _ _) h, fun x hx => ?_⟩
      rcases List.mem_cons.mp hx with rfl | hx
      · exact le_trans (le_max_right _ _) h
      · exact h' x hx
  refine le_trans ?_ ((hfold _ 0).2 _ (List.mem_map.mpr ⟨v, List.mem_range'_1.mpr (by omega), rfl⟩))
  have hl : ∀ lc : BitVec 2, lc = 0 ∨ lc = 1 ∨ lc = 2 ∨ lc = 3 := by decide
  rcases hl lc with rfl | rfl | rfl | rfl <;> simp

/-- The streams and codewords of every version and level lie within their spaces, whatever the tables. -/
theorem cap_le_bitsSize (rom : Rom) {v : Nat} (h1 : 1 ≤ v) (h40 : v ≤ 40) (lc : BitVec 2) :
    capOf rom v lc ≤ bitsSize rom ∧ capOf rom v lc / 8 ≤ dcwSize rom ∧ totalCodewords rom v lc ≤ icwSize rom :=
  ⟨le_maxOverSymbols _ h1 h40 lc, le_maxOverSymbols (fun v lc => capOf rom v lc / 8) h1 h40 lc,
    le_maxOverSymbols _ h1 h40 lc⟩

end Sys2Proof.Machine
end

