-- ==== Sys2Proof/WellFormed.lean ====
section
/-! DEFINITION. When a command's word operands are in range (30_encoding.md R87). A command that is not well-formed still
has an encoding and a meaning: it raises BadOperand. The register operands of ANALYZE and ENCODE are not syntax and are
checked by the machine. -/

namespace Sys2Proof

/-- GFGEN: `n ≤ 254` (R87). -/
def wfGfgen (n : BitVec 8) : Bool := decide (n.toNat ≤ 254)

/-- RSENC: `k + n ≤ 255` (R87). -/
def wfRsenc (k n : BitVec 8) : Bool := decide (k.toNat + n.toNat ≤ 255)

/-- RSSYN and RSCOR: `n ≤ N` (R87; `N ≤ 255` holds of every 8-bit `N`). -/
def wfBlock (len n : BitVec 8) : Bool := decide (n.toNat ≤ len.toNat)

/-- The word operands of the command are in the range R87 gives. -/
def WellFormed : Instr → Bool
  | .gfgen n => wfGfgen n
  | .rsenc k n => wfRsenc k n
  | .rssyn len n => wfBlock len n
  | .rscor len n => wfBlock len n
  | .nop => true
  | .sreset => true
  | .gfmul _ _ => true
  | .analyze => true
  | .pack => true
  | .rssplit => true
  | .rsilv => true
  | .matinit => true
  | .matplace => true
  | .maskeval => true
  | .masksel => true
  | .infostamp => true
  | .encode => true
  | .fmtenc _ _ => true
  | .fmtdec _ => true
  | .verenc _ => true
  | .verdec _ => true

end Sys2Proof
end

