-- ==== Sys2Proof/Tests/Slice0.lean ====
section
/-! SUPPORT. Tests with expected results from the spec's rules and vectors (95_test_vectors.md), and for every statement with
hypotheses a witness that meets them. Each comment or name says which rule the result is from. -/

namespace Sys2Proof.Tests

open Sys2Proof Sys2Proof.Machine

-- One evaluation at a time: side by side their threads take more memory than the check allows.
set_option Elab.async false

/-! ### Small states -/

/-- The bytes at consecutive addresses from `a` on, as memory. -/
def cellsAt (a : Nat) (bs : List Byte) : Memory := bs.zipIdx.map fun p => (a + p.2, p.1)

/-- The reset state with bytes in BLK. -/
def withBlk (bs : List Byte) : State := { State.reset with mem := cellsAt blkBase bs }

/-- The reset state with a text, a version and a level code. -/
def withText (bs : List Byte) (version : BitVec 6) (level : BitVec 2) : State :=
  { State.reset with mem := cellsAt textBase bs, len := BitVec.ofNat 13 bs.length, version := version, level := level }

/-- The reset state with given valid bits. -/
def withValid (v : BitVec 12) : State := { State.reset with valid := v }

/-- A halted state. -/
def halted : State := { State.reset with halt := true, err := true, errcode := 3, errinfo := 0x3F000000 }

/-- The text "01234567" of QRV's example, version 1, level H (code 10). -/
def example01234567 : State := withText [0x30, 0x31, 0x32, 0x33, 0x34, 0x35, 0x36, 0x37] 1 0b10

/-! ### WellFormed refuses an ill-formed term for each of its checks (R87) -/

theorem test_wf_gfgen : WellFormed (.gfgen 255) = false ∧ WellFormed (.gfgen 254) = true := by decide
theorem test_wf_rsenc : WellFormed (.rsenc 200 56) = false ∧ WellFormed (.rsenc 200 55) = true := by decide
theorem test_wf_rssyn : WellFormed (.rssyn 3 4) = false ∧ WellFormed (.rssyn 4 4) = true := by decide
theorem test_wf_rscor : WellFormed (.rscor 0 1) = false ∧ WellFormed (.rscor 255 255) = true := by decide

/-! ### Decoding: the word of every command from R81 to R85, bit by bit or field by field -/

theorem test_decode_nop : decode 0b00000000000000000000000000000000 = .ok .nop := by decide
theorem test_decode_sreset : decode 0b00000001000000000000000000000000 = .ok .sreset := by decide
theorem test_decode_gfmul : decode 0b00010000000000110000011100000000 = .ok (.gfmul 3 7) := by decide
theorem test_decode_gfgen : decode 0b00010001000000100000000000000000 = .ok (.gfgen 2) := by decide
theorem test_decode_rsenc : decode 0b00100000000100000000101000000000 = .ok (.rsenc 16 10) := by decide
theorem test_decode_rssyn : decode 0b00100001000110100000101000000000 = .ok (.rssyn 26 10) := by decide
theorem test_decode_rscor : decode 0b00100010000110100000101000000000 = .ok (.rscor 26 10) := by decide
theorem test_decode_analyze : decode 0x30000000 = .ok .analyze := by decide
theorem test_decode_pack : decode 0x31000000 = .ok .pack := by decide
theorem test_decode_rssplit : decode 0x32000000 = .ok .rssplit := by decide
theorem test_decode_rsilv : decode 0x33000000 = .ok .rsilv := by decide
theorem test_decode_matinit : decode 0x34000000 = .ok .matinit := by decide
theorem test_decode_matplace : decode 0x35000000 = .ok .matplace := by decide
theorem test_decode_maskeval : decode 0x36000000 = .ok .maskeval := by decide
theorem test_decode_masksel : decode 0x37000000 = .ok .masksel := by decide
theorem test_decode_infostamp : decode 0x38000000 = .ok .infostamp := by decide
theorem test_decode_encode : decode 0x3F000000 = .ok .encode := by decide
/-- FMTENC H, 6 (R263). -/
theorem test_decode_fmtenc : decode 0b01000000000000000000000000010110 = .ok (.fmtenc 0b10 6) := by decide
theorem test_decode_fmtdec : decode 0b01000001000000000111011111000100 = .ok (.fmtdec 0x77C4) := by decide
theorem test_decode_verenc : decode 0b01000010000000000000000000000111 = .ok (.verenc 7) := by decide
theorem test_decode_verdec : decode 0b01000011000000000111110010010100 = .ok (.verdec 0x07C94) := by decide

/-- The must-be-zero bit next to each format's fields (R81 to R84), and an unassigned opcode (R86). -/
theorem test_decode_illegal :
    decode 0x30000001 = .error .reservedBitsSet ∧ decode 0x10030780 = .error .reservedBitsSet ∧
    decode 0x11028000 = .error .reservedBitsSet ∧ decode 0x40000020 = .error .reservedBitsSet ∧
    decode 0x41008000 = .error .reservedBitsSet ∧ decode 0x42000040 = .error .reservedBitsSet ∧
    decode 0x43040000 = .error .reservedBitsSet ∧ decode 0x39000000 = .error .unassignedOpcode ∧
    decode 0xFF000000 = .error .unassignedOpcode := by decide

/-- A word the opcode table numbers, as the host gives it. -/
theorem test_decodeTableWord : decodeTableWord 32 0x43007C94 = some (.verdec 0x07C94) ∧
    decodeTableWord 32 0x02000000 = none := by decide

/-! ### One step or one command each -/

/-- NOP clears an error report (R300). -/
theorem test_nop : (after .nop { State.reset with err := true, errcode := 5, errinfo := 7 }) =
    { State.reset with done := true } := by decide

/-- SRESET leaves HALT and keeps BLK (R301, R346). -/
theorem test_sreset : (after .sreset { halted with mem := cellsAt blkBase [9], version := 7 }) =
    { State.reset with done := true, mem := cellsAt blkBase [9] } := by decide

/-- R136: GFMUL 3, 7 gives 9. -/
theorem test_gfmul : (after (.gfmul 3 7) State.reset).res0 = 9 := by decide
/-- R136: GFMUL 255, 255 gives 226. -/
theorem test_gfmul_reduces : (after (.gfmul 255 255) State.reset).res0 = 226 := by decide

/-- R139: GFGEN 2 gives [1, 3, 2], RES0 = 2, GENV. -/
theorem test_gfgen : let t := after (.gfgen 2) State.reset
    t.gen = [1, 3, 2] ∧ t.res0 = 2 ∧ t.valid = 0x401 := by decide
/-- R139: GFGEN 255 raises BadOperand and writes nothing. -/
theorem test_gfgen_range : after (.gfgen 255) State.reset = State.reset.withError 7 0x11FF0000 := by decide

/-- R152, the step trace: data 12 34 56, n = 2 gives check codewords 152, 232. -/
theorem test_rsenc : let t := after (.rsenc 3 2) (withBlk [0x12, 0x34, 0x56])
    t.mem = cellsAt blkBase [0x12, 0x34, 0x56, 152, 232] ∧ t.gen = [1, 3, 2] ∧ t.res0 = 2 := by decide
/-- R152: the nine data codewords of "01234567" 1-H have these 17 check codewords. -/
theorem test_rsenc_example :
    rsecc [0x10, 0x20, 0x0C, 0x56, 0x61, 0x80, 0xEC, 0x11, 0xEC] 17 =
      [0x0E, 0x9D, 0x02, 0xC8, 0xC2, 0x94, 0xF3, 0xA7, 0xAD, 0x8D, 0xE2, 0x0A, 0xF4, 0xA5, 0x2B, 0xAC, 0xDF] := by
  decide +kernel

/-- R175: [1, 2, 3] with n = 2 has syndromes [0, 3]. -/
theorem test_rssyn : let t := after (.rssyn 3 2) (withBlk [1, 2, 3])
    t.syn = [0, 3] ∧ t.res0 = 1 ∧ t.valid = 0x801 ∧ t.mem = cellsAt blkBase [1, 2, 3] := by decide

/-- R175: [1, 3, 3] with n = 2 is corrected to [1, 3, 2], RES1 = 1. -/
theorem test_rscor : let t := after (.rscor 3 2) (withBlk [1, 3, 3])
    t.mem = cellsAt blkBase [1, 3, 2] ∧ t.res1 = 1 ∧ t.done = true := by decide
/-- R175: [1, 2, 3] with n = 2 fails: RES1 = -1, RSUncorrectable, BLK unchanged. -/
theorem test_rscor_fails : let t := after (.rscor 3 2) (withBlk [1, 2, 3])
    t.mem = cellsAt blkBase [1, 2, 3] ∧ t.res1 = 0xFFFFFFFF ∧ t.errcode = 4 ∧ t.syn = [0, 3] := by decide

/-- R106: "01234567", H, version 1: MODE 0001, MINVER 1, ANVALID 1. -/
theorem test_analyze : let t := after .analyze example01234567
    t.mode = 1 ∧ t.minver = 1 ∧ t.anvalid = true ∧ t.notice = false ∧ t.valid = 0x003 := by decide +kernel
/-- R111, R347: eighteen digits need version 2 at level H (4 + 10 + 60 > 72): DataTooLarge, MINVER 2, ANVALID 1. -/
theorem test_analyze_too_large : let t := after .analyze (withText (List.replicate 18 0x31) 1 0b10)
    t.errcode = 1 ∧ t.minver = 2 ∧ t.anvalid = true ∧ t.valid = 0x001 := by decide +kernel

/-- R115: the codewords of "01234567", version 1, level H. -/
theorem test_pack : let t := after .pack { example01234567 with valid := 0x003, mode := 1 }
    t.dcw = [0x10, 0x20, 0x0C, 0x56, 0x61, 0x80, 0xEC, 0x11, 0xEC] ∧ t.usedbits = 41 ∧ t.capbits = 72 ∧ t.ndcw = 9 ∧
    t.valid = 0x007 := by decide +kernel
/-- R114, R112: "AC-42" in alphanumeric mode is 45·10+12, 45·41+4, then 2 alone. -/
theorem test_packAlphanumeric : packAlphanumeric [0x41, 0x43, 0x2D, 0x34, 0x32] =
    bitsMsb 11 462 ++ bitsMsb 11 1849 ++ bitsMsb 6 2 := by decide

/-- R156: version 1, level H is one block of 9 with 17 check codewords. -/
theorem test_rssplit :
    let t := after .rssplit { example01234567 with
      valid := 0x007, ndcw := 9, dcw := [0x10, 0x20, 0x0C, 0x56, 0x61, 0x80, 0xEC, 0x11, 0xEC] }
    t.dblk = [[0x10, 0x20, 0x0C, 0x56, 0x61, 0x80, 0xEC, 0x11, 0xEC]] ∧ t.nblk = 1 ∧ t.nec = 17 ∧
    t.eblk.map List.length = [17] ∧ t.valid = 0x00F := by decide +kernel
/-- R156, R344: a plan that does not add up to NDCW raises StructuralInconsistency and halts. -/
theorem test_rssplit_inconsistent : let t := after .rssplit { example01234567 with valid := 0x007, ndcw := 8 }
    t.errcode = 3 ∧ t.halt = true ∧ t.valid = 0x007 := by decide

/-- R157: QRV's interleaving example. -/
theorem test_rsilv :
    let t := after .rsilv { State.reset with
      valid := 0x00F, ndcw := 4, nblk := 2, nec := 2, dblk := [[1, 3], [2, 4]], eblk := [[5, 7], [6, 8]] }
    t.icw = [1, 2, 3, 4, 5, 6, 7, 8] ∧ t.nicw = 8 ∧ t.valid = 0x01F := by decide
/-- R157: blocks of unequal length. -/
theorem test_rsilv_unequal : interleave [[1, 2], [3, 4, 5]] [[6], [7]] = [1, 3, 2, 4, 5, 6, 7] := by decide

/-- R203: version 1 has SIZE 21, NDATA 208, and this top row of types and values. -/
theorem test_matinit : let t := after .matinit { State.reset with valid := 0x01F, version := 1 }
    t.size = 21 ∧ t.ndata = 208 ∧
    (t.mtype.getD 0 []).map typeCode = [1, 1, 1, 1, 1, 1, 1, 2, 5, 7, 7, 7, 7, 2, 1, 1, 1, 1, 1, 1, 1] ∧
    (t.mfunc.getD 8 []).map moduleCode = [0, 0, 0, 0, 0, 0, 1, 0, 0, 2, 2, 2, 2, 0, 0, 0, 0, 0, 0, 0, 0] := by
  decide +kernel

/-- R208: the first codeword 0x10 gives the four cells of the first two rows scanned 0, 0, 0, 1. -/
theorem test_matplace :
    let t := after .matplace { State.reset with
      valid := 0x03F, version := 1, size := 21, ndata := 208, nicw := 26, icw := 0x10 :: List.replicate 25 0,
      mtype := typeGrid 1 [], mfunc := functionGrid 1 [] }
    cellAt .empty t.mpre 20 20 = .light ∧ cellAt .empty t.mpre 20 19 = .light ∧ cellAt .empty t.mpre 19 20 = .light ∧
    cellAt .empty t.mpre 19 19 = .dark ∧ t.valid = 0x07F := by decide +kernel
/-- R205: more than seven remainder bits raise StructuralInconsistency. -/
theorem test_matplace_inconsistent : let t := after .matplace { State.reset with valid := 0x03F, ndata := 16, nicw := 1 }
    t.errcode = 3 ∧ t.halt = true ∧ t.valid = 0x03F := by decide

/-- R233, R234, R237, R239: on a light 2×2 matrix of data cells, mask 0 darkens the two cells with even row + column; mask 1
the top row; neither leaves a block, and half the cells are dark. -/
theorem test_maskeval :
    let t := after .maskeval { State.reset with
      valid := 0x07F, size := 2, mpre := [[.light, .light], [.light, .light]], mtype := [[.data, .data], [.data, .data]] }
    t.mcand[0] = [[.dark, .light], [.light, .dark]] ∧ t.mcand[1] = [[.dark, .dark], [.light, .light]] ∧
    t.pen[0] = ⟨0, 0, 0, 0, 0, 2⟩ ∧ t.valid = 0x0FF := by decide +kernel
/-- R236, R238, R239: a run of 6 scores 4, overlapping windows both match, and the N4 boundary of size 21. -/
theorem test_penalties :
    runScores .empty 0 [.dark, .light, .light, .light, .light, .light, .light] = 4 ∧
    windowMatches [.dark, .light, .dark, .dark, .dark, .light, .dark, .dark, .dark, .light, .dark] = 2 ∧
    n4Score 200 441 = 0 ∧ n4Score 196 441 = 10 := by decide

/-- R242: the totals of R240's example select mask 6. -/
theorem test_masksel :
    (after .masksel { State.reset with
      valid := 0x0FF
      pen := #v[⟨0, 0, 0, 0, 1257, 0⟩, ⟨0, 0, 0, 0, 1178, 0⟩, ⟨0, 0, 0, 0, 1151, 0⟩, ⟨0, 0, 0, 0, 1155, 0⟩,
        ⟨0, 0, 0, 0, 1169, 0⟩, ⟨0, 0, 0, 0, 1180, 0⟩, ⟨0, 0, 0, 0, 1113, 0⟩, ⟨0, 0, 0, 0, 1124, 0⟩] }).masksel = 6 := by
  decide
/-- R242: a tie between 3 and 5 selects 3. -/
theorem test_masksel_tie : selectMask [9, 9, 9, 4, 9, 4, 9, 9] = 3 := by decide

/-- R213: level H and mask 6 stamp 0x0D0C, so row 8 begins 0, 0, 0, 1, 1, 0; version 6 has no version information. -/
theorem test_infostamp :
    let t := after .infostamp { State.reset with
      valid := 0x1FF, version := 1, level := 0b10, masksel := 6, mcand := Vector.replicate 8 (functionGrid 1 []) }
    t.formatinfo = 0x0D0C ∧ t.versioninfo = none ∧
    ((t.mfinal.getD 8 []).take 9).map moduleCode = [0, 0, 0, 1, 1, 0, 1, 1, 0] ∧ t.valid = 0x3FF := by decide +kernel
/-- R213, R282: version 7 carries version information 0x07C94. -/
theorem test_infostamp_version : (after .infostamp { State.reset with valid := 0x1FF, version := 7 }).versioninfo =
    some 0x07C94 := by decide +kernel

/-- R263: FMTENC H, 6 gives 0x0D0C; FMTENC M, 0 gives the mask constant. -/
theorem test_fmtenc : (after (.fmtenc 0b10 6) State.reset).res0 = 0x0D0C ∧
    (after (.fmtenc 0 0) State.reset).res0 = 0x5412 := by decide

/-- R266: three flips of 0x77C4 are corrected. -/
theorem test_fmtdec : let t := after (.fmtdec 0x37D5) State.reset
    t.res0 = 0b01000 ∧ t.res1 = 3 ∧ t.res2 = 0x77C4 := by decide +kernel
/-- R266: FMTDEC 0 fails. -/
theorem test_fmtdec_fails : let t := after (.fmtdec 0) State.reset
    t.errcode = 2 ∧ t.res0 = 0 ∧ t.res1 = 0xFFFFFFFF ∧ t.res2 = 0 := by decide +kernel

/-- R283: VERENC 7 and 40 are present, 6 and 41 are absent. -/
theorem test_verenc : (after (.verenc 7) State.reset).res0 = 0x80007C94 ∧
    (after (.verenc 40) State.reset).res0 = 0x80028C69 ∧ (after (.verenc 6) State.reset).res0 = 0 ∧
    (after (.verenc 41) State.reset).res0 = 0 := by decide

/-- R286: three flips of 0x07C94 are corrected. -/
theorem test_verdec : let t := after (.verdec 0x27D95) State.reset
    t.res0 = 7 ∧ t.res1 = 3 ∧ t.res2 = 0x07C94 := by decide +kernel
/-- R286: the code of version 5 has syndrome 0 and fails validation. -/
theorem test_verdec_validates : (after (.verdec 0x05DFB) State.reset).errcode = 2 := by decide +kernel

/-- A step from reset of a state made to fetch GFMUL 3, 7. -/
theorem test_withFetchWord : ∃ t, step (State.reset.withFetchWord 32 0x10030700) = .next t ∧ t.res0 = 9 :=
  ⟨_, rfl, by decide⟩

/-- R62: TEXT has 8192 elements, BLK 256. -/
theorem test_out_of_range : elementAt State.reset 0x102000 = .known 0 ∧ elementAt State.reset 0xC00100 = .known 0 := by
  decide

/-- R321: EXP[8] = 29, LOG[2] = 1, CAP of version 1 level L is 152 bits, the plan of version 1 level H, ALIGN of version 7,
VERREF of version 7. -/
theorem test_rom_layout :
    readRom defaultRom 8 = 29 ∧ readRom defaultRom (256 + 2) = 1 ∧ readRom defaultRom (65536 + 1) = 152 ∧
    readRom defaultRom (2 * 65536 + 16) = 17 ∧ readRom defaultRom (2 * 65536 + 19) = 9 ∧
    readRom defaultRom (3 * 65536 + 48) = 3 ∧ readRom defaultRom (3 * 65536 + 51) = 38 ∧
    readRom defaultRom (4 * 65536 + 7) = 0x07C94 := by decide +kernel

/-! ### The state at the end of the pipeline for QRV's example, with every field written out as what its rule says -/

/-- R115's codewords of "01234567", version 1, level H. -/
def exampleDcw : List Byte := [0x10, 0x20, 0x0C, 0x56, 0x61, 0x80, 0xEC, 0x11, 0xEC]

/-- R156's check codewords of it. -/
def exampleEcc : List Byte :=
  [0x0E, 0x9D, 0x02, 0xC8, 0xC2, 0x94, 0xF3, 0xA7, 0xAD, 0x8D, 0xE2, 0x0A, 0xF4, 0xA5, 0x2B, 0xAC, 0xDF]

/-- Its placed matrix (R208). -/
def examplePre : Grid Module :=
  placeBits (functionGrid 1 []) (scanOrder (typeGrid 1 []) 21) (placementStream (exampleDcw ++ exampleEcc) 0)

/-- Its eight candidates (R234). -/
def exampleCandidates : Vector (Grid Module) 8 :=
  candidates { State.reset with mpre := examplePre, mtype := typeGrid 1 [], size := 21 }

/-- Their scores (R240). -/
def exampleScores : Vector Penalty 8 := exampleCandidates.map (penaltyOf 21)

/-- The selected mask (R242). -/
def exampleMask : BitVec 3 := BitVec.ofNat 3 (selectMask (exampleScores.toList.map fun p => p.total.toNat))

/-- The state after ENCODE of "01234567" at version 1, level H. -/
def exampleFinal : State := { example01234567 with
  done := true, valid := 0x3FF, mode := 1, minver := 1, anvalid := true, usedbits := 41, capbits := 72, ndcw := 9,
  bits := exampleDcw.flatMap fun b => bitsMsb 8 b.toNat, dcw := exampleDcw, dblk := [exampleDcw], eblk := [exampleEcc],
  nblk := 1, nec := 17, icw := exampleDcw ++ exampleEcc, nicw := 26, size := 21, ndata := 208, mtype := typeGrid 1 [],
  mfunc := functionGrid 1 [], mpre := examplePre, mcand := exampleCandidates, pen := exampleScores,
  masksel := exampleMask, formatinfo := fmtcode 0b10 exampleMask,
  mfinal := stampFormat (exampleCandidates[exampleMask.toNat]'(exampleMask.isLt)) 21 (fmtcode 0b10 exampleMask) }

theorem exampleFinal_analyze : Honest ruleAnalyze exampleFinal :=
  honest_analyze (by decide +kernel) (by decide +kernel) (by decide +kernel) (by decide +kernel) (by decide +kernel)

theorem exampleFinal_pack : Honest rulePack exampleFinal :=
  honest_pack (by decide +kernel) (by decide +kernel) (by decide +kernel) (by decide +kernel) (by decide +kernel)

theorem exampleFinal_rssplit : Honest ruleRssplit exampleFinal :=
  honest_rssplit (by decide +kernel) (by decide +kernel) (by decide +kernel) (by decide +kernel) (by decide +kernel)

theorem exampleFinal_rsilv : Honest ruleRsilv exampleFinal := honest_rsilv (by decide +kernel) (by decide +kernel)

theorem exampleFinal_version : exampleFinal.version.toNat = 1 := by decide

theorem exampleFinal_align : alignOf exampleFinal.rom 1 = [] := by decide

theorem exampleFinal_matinit : Honest ruleMatinit exampleFinal := by
  refine honest_matinit ?_ ?_ (by decide) (by decide +kernel) <;>
    rw [exampleFinal_version, exampleFinal_align] <;> exact rfl

theorem exampleFinal_matplace : Honest ruleMatplace exampleFinal :=
  honest_matplace ⟨by decide, by decide⟩ (by
    have h : exampleFinal.icw.take exampleFinal.nicw.toNat = exampleDcw ++ exampleEcc := by decide
    have hr : exampleFinal.ndata.toNat - 8 * exampleFinal.nicw.toNat = 0 := by decide
    have hs : exampleFinal.size.toNat = 21 := by decide
    have hf : exampleFinal.mfunc = functionGrid 1 [] := by simp only [exampleFinal]
    have ht : exampleFinal.mtype = typeGrid 1 [] := by simp only [exampleFinal]
    have hm : exampleFinal.mpre = examplePre := by simp only [exampleFinal]
    rw [h, hr, hs, hf, ht, hm, examplePre])

theorem exampleFinal_maskeval : Honest ruleMaskeval exampleFinal := honest_maskeval rfl rfl

theorem exampleFinal_masksel : Honest ruleMasksel exampleFinal := honest_masksel rfl

theorem exampleFinal_infostamp : Honest ruleInfostamp exampleFinal :=
  honest_infostamp rfl (by rw [exampleFinal_version]; exact rfl) (by
    have h : matrixSize exampleFinal.version.toNat = 21 := by decide
    rw [h]
    exact rfl)

theorem exampleFinal_coherent : Coherent exampleFinal := by
  refine ⟨fun _ => ⟨by decide, by decide⟩, fun k h1 h9 _ => ?_⟩
  interval_cases k
  · exact exampleFinal_analyze
  · exact exampleFinal_pack
  · exact exampleFinal_rssplit
  · exact exampleFinal_rsilv
  · exact exampleFinal_matinit
  · exact exampleFinal_matplace
  · exact exampleFinal_maskeval
  · exact exampleFinal_masksel
  · exact exampleFinal_infostamp

theorem exampleFinal_controlInv : ControlInv exampleFinal := by
  refine ⟨by decide, by decide, by decide, fun k h1 h8 => ?_, by decide, by decide, by decide, by decide, by decide,
    by decide, by decide, by decide⟩
  interval_cases k <;> decide

theorem tablesFit_1H {s : State} (hr : s.rom = defaultRom) (hv : s.version = 1) (hl : s.level = 0b10) : TablesFit s := by
  unfold TablesFit
  rw [hr, hv, hl]
  unfold PlanPremise FitPremise CapPremise
  decide +kernel

/-- R302 to R304: ENCODE raises what its first failing stage raises, with its own word in ERRINFO. -/
theorem test_encode_too_large : let t := after .encode (withText (List.replicate 18 0x31) 1 0b10)
    t.errcode = 1 ∧ t.errinfo = 0x3F000000 ∧ t.minver = 2 ∧ t.valid = 0x001 := by decide +kernel

/-- R302: ENCODE of a text that fits runs all nine stages and ends in the state the stages end in. -/
theorem test_encode : ruleEncode example01234567 = .done (allStages (clearStages ANALYZED example01234567)) :=
  stageSequence_done (by decide +kernel) (by decide +kernel) ⟨by decide +kernel, by decide +kernel⟩

/-! ### Witnesses: for every statement with hypotheses a state and operands that meet them -/

theorem witness_StepRunsDecodedCommand :
    ({ State.reset with pending := [.write cmdAddr 0x10030700, .read 0x18] } : State).pending =
      .write cmdAddr 0x10030700 :: [.read 0x18] ∧ decode 0x10030700 = .ok (.gfmul 3 7) := ⟨rfl, by decide⟩

/-- A word outside a command's row is not that command's word. -/
theorem not_in_row {i : Instr} {k m : Word} (hi : Laws.OpcodeRow.Statement i) (h : (0x02000000 : Word) = encode i)
    (hr : Laws.OpcodeRow.row i = (k, m)) (hn : (0x02000000 : Word) &&& m ≠ k) : False := by
  unfold Laws.OpcodeRow.Statement at hi
  rw [← h, hr] at hi
  exact hn hi

/-- The word 0x02000000 is the word of no command. -/
theorem witness_IllegalWordRaises :
    ({ State.reset with pending := [.write cmdAddr 0x02000000] } : State).pending = .write cmdAddr 0x02000000 :: [] ∧
      (∀ i, (0x02000000 : Word) ≠ encode i) ∧ State.reset.halt = false := by
  refine ⟨rfl, fun i h => ?_, rfl⟩
  cases i with
  | nop => exact absurd h (by decide)
  | sreset => exact absurd h (by decide)
  | gfmul a b => exact not_in_row (Laws.OpcodeRow.gfmul a b) h rfl (by decide)
  | gfgen n => exact not_in_row (Laws.OpcodeRow.gfgen n) h rfl (by decide)
  | rsenc k n => exact not_in_row (Laws.OpcodeRow.rsenc k n) h rfl (by decide)
  | rssyn len n => exact not_in_row (Laws.OpcodeRow.rssyn len n) h rfl (by decide)
  | rscor len n => exact not_in_row (Laws.OpcodeRow.rscor len n) h rfl (by decide)
  | analyze => exact absurd h (by decide)
  | pack => exact absurd h (by decide)
  | rssplit => exact absurd h (by decide)
  | rsilv => exact absurd h (by decide)
  | matinit => exact absurd h (by decide)
  | matplace => exact absurd h (by decide)
  | maskeval => exact absurd h (by decide)
  | masksel => exact absurd h (by decide)
  | infostamp => exact absurd h (by decide)
  | encode => exact absurd h (by decide)
  | fmtenc level mask => exact not_in_row (Laws.OpcodeRow.fmtenc level mask) h rfl (by decide)
  | fmtdec raw => exact not_in_row (Laws.OpcodeRow.fmtdec raw) h rfl (by decide)
  | verenc version => exact not_in_row (Laws.OpcodeRow.verenc version) h rfl (by decide)
  | verdec raw => exact not_in_row (Laws.OpcodeRow.verdec raw) h rfl (by decide)

theorem witness_StepNeverStops : State.reset.pending = [] := rfl

/-- A command, an illegal word, a read and a write while halted. -/
theorem witness_HaltedRefusesEveryWord :
    halted.halt = true ∧ (0x00000000 : Word) ≠ 0x01000000 ∧ (0x02000000 : Word) ≠ 0x01000000 ∧ (0 : Addr) ≠ 1 ∧
      (2 : Addr) ≠ 1 ∧ (1 : Addr) ≠ cmdAddr ∧ (0x100000 : Addr) ≠ cmdAddr := by decide

/-- Each range of R87 at its boundary, inside and outside. -/
theorem witness_BadOperandExactlyOutOfRange :
    State.reset.halt = false ∧ OperandsInRange (.gfgen 254) State.reset ∧ ¬ OperandsInRange (.gfgen 255) State.reset ∧
      OperandsInRange (.rsenc 200 55) State.reset ∧ ¬ OperandsInRange (.rsenc 200 56) State.reset ∧
      OperandsInRange (.rssyn 7 7) State.reset ∧ ¬ OperandsInRange (.rssyn 7 8) State.reset ∧
      OperandsInRange (.rscor 255 255) State.reset ∧ ¬ OperandsInRange (.rscor 0 1) State.reset ∧
      ¬ OperandsInRange .analyze State.reset ∧ OperandsInRange .analyze { State.reset with version := 1 } ∧
      OperandsInRange .encode { State.reset with version := 40 } ∧
      ¬ OperandsInRange .encode { State.reset with version := 41 } ∧ OperandsInRange .nop State.reset := by
  simp only [OperandsInRange]
  decide

/-- The required bit of PACK and of INFOSTAMP, set and clear; a command that requires none. -/
theorem witness_SequenceErrorExactlyNotReady :
    State.reset.halt = false ∧ OperandsInRange .pack State.reset ∧ ¬ Ready .pack State.reset ∧
      Ready .pack (withValid 0x003) ∧ ¬ Ready .infostamp (withValid 0x0FF) ∧ Ready .infostamp (withValid 0x1FF) ∧
      Ready .nop (withValid 0) ∧ ¬ Ready (.gfmul 1 1) (withValid 0) := by
  refine ⟨rfl, trivial, fun h => absurd (h 1 rfl) (by decide), ?_, fun h => absurd (h 8 rfl) (by decide), ?_, ?_,
    fun h => absurd (h 0 rfl) (by decide)⟩ <;> intro k hk <;> simp only [requiredBit, Option.some.injEq, reduceCtorEq] at hk <;>
    subst hk <;> decide

/-- A command that completes, and one for each error code an execution reports. -/
theorem witness_EveryCommandReportsOnce :
    (∃ t, exec .nop State.reset = .next t ∧ t.err = false) ∧
      (∃ t, exec .analyze (withText (List.replicate 18 0x31) 1 0b10) = .next t ∧ t.errcode = 1) ∧
      (∃ t, exec (.fmtdec 0) State.reset = .next t ∧ t.errcode = 2) ∧
      (∃ t, exec .matplace { withValid 0x03F with ndata := 16, nicw := 1 } = .next t ∧ t.errcode = 3) ∧
      (∃ t, exec (.rscor 3 2) (withBlk [1, 2, 3]) = .next t ∧ t.errcode = 4) ∧
      (∃ t, exec .pack State.reset = .next t ∧ t.errcode = 5) ∧ (∃ t, exec (.gfgen 255) State.reset = .next t ∧ t.errcode = 7) ∧
      ∃ t, exec .nop halted = .next t ∧ t.errcode = 8 :=
  ⟨⟨_, rfl, by decide⟩, ⟨_, rfl, by decide +kernel⟩, ⟨_, rfl, by decide +kernel⟩, ⟨_, rfl, by decide +kernel⟩,
    ⟨_, rfl, by decide +kernel⟩, ⟨_, rfl, by decide⟩, ⟨_, rfl, by decide⟩, ⟨_, rfl, by decide⟩⟩

/-- HALT cleared by SRESET and by reset, and set by MATPLACE. -/
theorem witness_HaltIsSticky :
    (∃ t, step { halted with pending := [.write cmdAddr 0x01000000] } = .next t ∧ t.halt = false) ∧
      (∃ t, step { halted with pending := [.reset] } = .next t ∧ t.halt = false) ∧
      (∃ t, step { withValid 0x03F with ndata := 16, nicw := 1, pending := [.write cmdAddr 0x35000000] } = .next t ∧
        t.halt = true) ∧
      ∃ t, exec .matplace { withValid 0x03F with ndata := 16, nicw := 1 } = .next t ∧ t.errcode = 3 :=
  ⟨⟨_, rfl, by decide⟩, ⟨_, rfl, by decide⟩, ⟨_, rfl, by decide +kernel⟩, ⟨_, rfl, by decide +kernel⟩⟩

/-- A command that is neither SRESET, RSENC nor RSCOR. -/
theorem witness_CommandsKeepInputs :
    (∃ t, exec .nop (withBlk [1]) = .next t) ∧ Instr.nop ≠ .sreset ∧ (∀ k n, Instr.nop ≠ .rsenc k n) ∧
      (∀ len n, Instr.nop ≠ .rscor len n) ∧ 8191 < 8192 :=
  ⟨⟨_, rfl⟩, by decide, by simp, by simp, by decide⟩

theorem witness_StandAloneLeavesPipeline :
    standAlone (.rsenc 3 2) = true ∧ ∃ t, exec (.rsenc 3 2) (withBlk [0x12, 0x34, 0x56]) = .next t := ⟨rfl, _, rfl⟩

/-- Every stage command answers a next state from every state. -/
theorem witness_StagesWriteOnlyTheirOutputs (s : State) : ∀ k, ∃ t, exec (stageCommand k) s = .next t :=
  fun _ => exec_next _ _

/-- Stage 2 completing; stage 6 raising; stage 9, the last. -/
theorem witness_StageValidBits :
    (OperandsInRange (stageCommand 2) (withValid 0x003) ∧ Ready (stageCommand 2) (withValid 0x003) ∧
        ∃ t, exec (stageCommand 2) (withValid 0x003) = .next t) ∧
      (∃ t, exec (stageCommand 6) { withValid 0x03F with ndata := 16, nicw := 1 } = .next t ∧ t.done = false) ∧
      Ready (stageCommand 9) (withValid 0x1FF) ∧ Ready (stageCommand 6) { withValid 0x03F with ndata := 16, nicw := 1 } := by
  refine ⟨⟨trivial, ?_, exec_next _ _⟩, ⟨_, rfl, by decide +kernel⟩, ?_, ?_⟩ <;> intro k hk <;>
    simp only [stageCommand, requiredBit, Option.some.injEq] at hk <;> subst hk <;> decide

theorem witness_StepKeepsControlInv :
    ControlInv exampleFinal ∧ ∃ t, step exampleFinal = .next t := ⟨exampleFinal_controlInv, _, rfl⟩

theorem witness_StepKeepsCoherence :
    Coherent exampleFinal ∧ ∃ t, step exampleFinal = .next t := ⟨exampleFinal_coherent, _, rfl⟩

/-- An ENCODE that completes and one that raises. -/
theorem witness_EncodeIsTheStageSequence :
    (after .encode example01234567).err = false ∧ (after .encode (withText (List.replicate 18 0x31) 1 0b10)).err = true :=
  ⟨after_encode_err rfl (by decide) (by decide) test_encode, by decide +kernel⟩

/-- "01234567" fits version 1, level H, whose tables fit; eighteen digits do not fit. -/
theorem witness_EncodeCompletes :
    example01234567.halt = false ∧ example01234567.valid.getLsbD 0 = true ∧ 1 ≤ example01234567.version.toNat ∧
      example01234567.version.toNat ≤ 40 ∧ TablesFit example01234567 ∧ textFits example01234567 = true ∧
      textFits (withText (List.replicate 18 0x31) 1 0b10) = false :=
  ⟨rfl, by decide, by decide, by decide, tablesFit_1H rfl rfl rfl, by decide +kernel, by decide +kernel⟩

/-- A read of a register with a value and of an invalid one; every group valid; both forms of VERSIONINFO. -/
theorem witness_HostReadsRegisters :
    ({ State.reset with pending := [.read 4] } : State).pending = .read 4 :: [] ∧
      elementAt State.reset 4 = .known 1 ∧
      elementAt { State.reset with held := 0xC01 } 8 = .any 4 ∧
      (withValid 0xFFF).valid &&& ~~~(withValid 0xFFF).held = 0 ∧ (withValid 0xFFF).versioninfo = none ∧
      ({ withValid 0xFFF with versioninfo := some 0x07C94 } : State).versioninfo = some 0x07C94 ∧
      ∀ k, k < 12 → (withValid 0xFFF).valid.getLsbD k = true := by decide

/-- A state with every buffer valid and full. -/
def fullBuffers : State := { withValid 0xFFF with
  bits := List.replicate 23648 true, dcw := List.replicate 2956 7, icw := List.replicate 3706 7,
  dblk := List.replicate 81 (List.replicate 255 7), eblk := List.replicate 81 (List.replicate 255 7),
  mtype := List.replicate 177 (List.replicate 177 .data), mfunc := List.replicate 177 (List.replicate 177 .dark),
  mpre := List.replicate 177 (List.replicate 177 .dark), mfinal := List.replicate 177 (List.replicate 177 .dark),
  mcand := Vector.replicate 8 (List.replicate 177 (List.replicate 177 .dark)), gen := List.replicate 256 7,
  syn := List.replicate 255 7 }

/-- The element at the last index of every space; cells beyond a matrix; the last entries of the tables. -/
theorem witness_HostReadsBuffers :
    fullBuffers.bits[23647]? = some true ∧ fullBuffers.dcw[2955]? = some (7 : Byte) ∧ fullBuffers.icw[3705]? = some (7 : Byte) ∧
      (fullBuffers.dblk.getD 80 [])[254]? = some (7 : Byte) ∧ (fullBuffers.eblk.getD 80 [])[254]? = some (7 : Byte) ∧
      (fullBuffers.mtype.getD 176 [])[176]? = some ModuleType.data ∧ (fullBuffers.mfunc.getD 176 [])[176]? = some Module.dark ∧
      (fullBuffers.mpre.getD 176 [])[176]? = some Module.dark ∧ (fullBuffers.mcand[7].getD 176 [])[176]? = some Module.dark ∧
      (fullBuffers.mfinal.getD 176 [])[176]? = some Module.dark ∧ fullBuffers.gen[255]? = some (7 : Byte) ∧
      fullBuffers.syn[254]? = some (7 : Byte) ∧ fullBuffers.valid = 0xFFF ∧
      (fullBuffers.mfunc.getD 176 [])[177]? = none ∧ (fullBuffers.mpre.getD 177 [])[0]? = none ∧
      (fullBuffers.mcand[7].getD 255 [])[255]? = none ∧ (fullBuffers.mfinal.getD 0 [])[177]? = none ∧ 1 ≤ 1 ∧ 40 ≤ 40 := by
  simp only [fullBuffers, withValid, List.getElem?_replicate, List.getD_eq_getElem?_getD, Vector.getElem_replicate]
  decide

/-- R41, R43: the sizes of the spaces under the default tables. -/
theorem witness_spaceSizes : 23647 < bitsSize fullBuffers.rom ∧ 2955 < dcwSize fullBuffers.rom ∧
    3705 < icwSize fullBuffers.rom := by
  have h : fullBuffers.rom = defaultRom := rfl
  rw [h]
  decide +kernel

/-- R322: tables of a greater capacity have longer buffers, here 3406 data codewords in version 40, level L. -/
theorem test_wider_tables :
    let cap := (defaultRom.cap.take 39) ++ [[18672, 27248, 10208, 13328]]
    let s : State := { withValid 0x007 with rom := { defaultRom with cap := cap }, dcw := List.replicate 3406 7 }
    elementAt s 0x300D4D = .known 7 ∧ elementAt s 0x300D4E = .known 0 := by decide +kernel

/-- The first index beyond each space, and its last index inside. -/
theorem witness_ReadBeyondSpaceIsZero :
    ({ State.reset with pending := [.read 0x102000] } : State).pending = .read 0x102000 :: [] ∧
      ([0x000016, 0x00001B, 0x000046, 0x000080, 0x102000, 0x205C60, 0x300B8C, 0x4050FF, 0x5050FF, 0x600E7A, 0x70B0B1,
        0x80B0B1, 0x90B0B1, 0xA7B0B1, 0xB0B0B1, 0xC00100, 0xD00100, 0xE000FF, 0xF00200, 0xF100A0, 0xF20500, 0xF30140, 0xF40040,
        0xF50000] : List Addr).all (beyondSpace State.reset.rom) = true ∧
      ([0x000015, 0x00001A, 0x00007D, 0x101FFF, 0x205C5F, 0x300B8B, 0x4050FE, 0x5050FE, 0x600E79, 0x70B0B0, 0x80B0B0,
        0x90B0B0, 0xA7B0B0, 0xB0B0B0, 0xC000FF, 0xD000FF, 0xE000FE, 0xF001FF, 0xF1009F, 0xF204FF, 0xF3013F, 0xF4003F] : List Addr).all
        (fun a => !beyondSpace State.reset.rom a) = true := by decide +kernel

/-- Every writable location but CMD, at the ends of TEXT and BLK. -/
theorem witness_ReadReturnsLastWrite :
    ({ State.reset with pending := [.write 5 0xFF, .read 5] } : State).pending = .write 5 0xFF :: .read 5 :: [] ∧
      ([5, 6, 7, 0x100000, 0x101FFF, 0xC00000, 0xC000FF] : List Addr).all (fun a => hostWritable a && a != cmdAddr) = true := by
  decide +kernel

/-- The first and the last element of TEXT and of BLK. -/
theorem witness_InputWriteEndsRun :
    ({ State.reset with pending := [.write 7 8] } : State).pending = .write 7 8 :: [] ∧
      (0x100000 : Addr) = BitVec.ofNat 24 (0x100000 + 0) ∧ (0x101FFF : Addr) = BitVec.ofNat 24 (0x100000 + 8191) ∧
      (0xC00000 : Addr) = BitVec.ofNat 24 (0xC00000 + 0) ∧ (0xC000FF : Addr) = BitVec.ofNat 24 (0xC00000 + 255) := by
  decide

/-- A read-only register, a read-only buffer, an index beyond TEXT and beyond BLK, a ROM location. -/
theorem witness_ReadOnlyWriteIgnored :
    ({ State.reset with pending := [.write 4 0xFFF] } : State).pending = .write 4 0xFFF :: [] ∧
      ([4, 8, 0x200000, 0x102000, 0xC00100, 0xF00000] : List Addr).all (fun a => !hostWritable a) = true := by
  decide +kernel

theorem witness_ResetState :
    ({ halted with pending := [.reset] } : State).pending = .reset :: [] ∧ 4 < 0x100000 ∧ 0xFFFFF < 0x100000 := by decide

theorem witness_NopCompletes : State.reset.halt = false ∧ halted.halt = true := ⟨rfl, rfl⟩

theorem witness_GfmulCompletes : State.reset.halt = false ∧ State.reset.valid.getLsbD 0 = true := by decide

theorem witness_GfgenCompletes :
    State.reset.halt = false ∧ State.reset.valid.getLsbD 0 = true ∧ (254 : BitVec 8).toNat ≤ 254 ∧
      ¬ (255 : BitVec 8).toNat ≤ 254 := by decide

/-- A block of 253 data and 2 check codewords, the longest; its last byte, and the bytes on both sides; one codeword more. -/
theorem witness_RsencCompletes :
    State.reset.halt = false ∧ State.reset.valid.getLsbD 0 = true ∧ (253 : BitVec 8).toNat + (2 : BitVec 8).toNat ≤ 255 ∧
      1 < (2 : BitVec 8).toNat ∧ blkBase + 252 < blkBase + (253 : BitVec 8).toNat ∧
      blkBase + (253 : BitVec 8).toNat + (2 : BitVec 8).toNat ≤ blkBase + 255 ∧
      255 < (253 : BitVec 8).toNat + (3 : BitVec 8).toNat := by decide

theorem witness_RssynCompletes :
    State.reset.halt = false ∧ State.reset.valid.getLsbD 0 = true ∧ (255 : BitVec 8).toNat ≤ (255 : BitVec 8).toNat ∧
      (254 : BitVec 8).toNat < (255 : BitVec 8).toNat := by decide

/-- R175: one block that is corrected and one that is not; more check codewords than the block has. -/
theorem witness_RscorResult :
    (withBlk [1, 3, 3]).halt = false ∧ (withBlk [1, 3, 3]).valid.getLsbD 0 = true ∧
      (2 : BitVec 8).toNat ≤ (3 : BitVec 8).toNat ∧
      rscorrect (blkBytes (withBlk [1, 3, 3]) 3) 2 = some ([1, 3, 2], 1) ∧
      rscorrect (blkBytes (withBlk [1, 2, 3]) 3) 2 = none ∧ (1 : BitVec 8).toNat < (2 : BitVec 8).toNat := by
  decide +kernel

/-- A text that fits its version, one that needs another version, and one that no version holds; the versions out of range. -/
theorem witness_AnalyzeResult :
    example01234567.halt = false ∧ example01234567.valid.getLsbD 0 = true ∧ 1 ≤ example01234567.version.toNat ∧
      example01234567.version.toNat ≤ 40 ∧ (analyzedMinimum example01234567).isSome = true ∧
      4 + ccbits (analyzedMode example01234567) 1 + databits (analyzedMode example01234567) 8 ≤ capOf defaultRom 1 0b10 ∧
      capOf defaultRom 1 0b10 < 4 + ccbits .numeric 1 + databits .numeric 18 ∧
      minimumVersion defaultRom 0b10 .byte 8000 = none ∧ State.reset.version.toNat = 0 ∧
      40 < ({ State.reset with version := 41 } : State).version.toNat := by decide +kernel

theorem witness_PackCompletes :
    (withValid 0x003).halt = false ∧ (withValid 0x003).valid.getLsbD 1 = true ∧ (withValid 0x001).valid.getLsbD 1 = false := by
  decide

/-- Version 1, level H: a plan of nine data codewords, against 9 and against 8 in NDCW. -/
theorem witness_RssplitResult :
    let s : State := { example01234567 with valid := 0x007, ndcw := 9, dcw := List.replicate 9 1 }
    s.halt = false ∧ s.valid.getLsbD 2 = true ∧ (withValid 0x003).valid.getLsbD 2 = false ∧
      ((planOf s.rom s.version.toNat s.level).groups.flatMap fun g => List.replicate g.1 g.2).sum = s.ndcw.toNat ∧
      s.dcw.length = s.ndcw.toNat ∧
      ((planOf s.rom s.version.toNat s.level).groups.flatMap fun g => List.replicate g.1 g.2).sum ≠ (8 : BitVec 12).toNat := by
  decide +kernel

theorem witness_RsilvCompletes :
    (withValid 0x00F).halt = false ∧ (withValid 0x00F).valid.getLsbD 3 = true ∧ (withValid 0x001).valid.getLsbD 3 = false := by
  decide

/-- The smallest and the largest version, and a cell of the smallest. -/
theorem witness_MatinitCompletes :
    let s : State := { withValid 0x01F with version := 1 }
    let t : State := { withValid 0x01F with version := 40 }
    s.halt = false ∧ s.valid.getLsbD 4 = true ∧ 1 ≤ s.version.toNat ∧ s.version.toNat ≤ 40 ∧ t.valid.getLsbD 4 = true ∧
      1 ≤ t.version.toNat ∧ t.version.toNat ≤ 40 ∧ (withValid 0x00F).valid.getLsbD 4 = false := by decide

/-- R = 0 and R = 7 fit, R = 8 and a stream that is too long do not. -/
theorem witness_MatplaceResult :
    let s : State := { withValid 0x03F with ndata := 208, nicw := 26 }
    let t : State := { withValid 0x03F with ndata := 215, nicw := 26 }
    let u : State := { withValid 0x03F with ndata := 216, nicw := 26 }
    let v : State := { withValid 0x03F with ndata := 207, nicw := 26 }
    s.halt = false ∧ s.valid.getLsbD 5 = true ∧ 8 * s.nicw.toNat ≤ s.ndata.toNat ∧ s.ndata.toNat ≤ 8 * s.nicw.toNat + 7 ∧
      t.ndata.toNat ≤ 8 * t.nicw.toNat + 7 ∧ 8 * u.nicw.toNat + 7 < u.ndata.toNat ∧ v.ndata.toNat < 8 * v.nicw.toNat ∧
      (withValid 0x01F).valid.getLsbD 5 = false := by decide

theorem witness_MaskevalCompletes :
    (withValid 0x07F).halt = false ∧ (withValid 0x07F).valid.getLsbD 6 = true ∧
      20 < ({ withValid 0x07F with size := 21 } : State).size.toNat ∧ (withValid 0x03F).valid.getLsbD 6 = false := by
  decide

theorem witness_MaskselCompletes :
    (withValid 0x0FF).halt = false ∧ (withValid 0x0FF).valid.getLsbD 7 = true ∧ (withValid 0x001).valid.getLsbD 7 = false := by
  decide

/-- Version 1 without version information, version 7 with it, each with square candidates. -/
theorem witness_InfostampCompletes :
    let s : State := { withValid 0x1FF with version := 1, mcand := Vector.replicate 8 (functionGrid 1 []) }
    let t : State := { withValid 0x1FF with
      version := 7, mcand := Vector.replicate 8 (List.replicate 45 (List.replicate 45 .light)) }
    s.halt = false ∧ s.valid.getLsbD 8 = true ∧ 1 ≤ s.version.toNat ∧ s.version.toNat ≤ 40 ∧
      SquareGrid 21 (s.mcand[s.masksel.toNat]'(s.masksel.isLt)) ∧ 7 ≤ t.version.toNat ∧ t.version.toNat ≤ 40 ∧
      SquareGrid 45 (t.mcand[t.masksel.toNat]'(t.masksel.isLt)) ∧ (withValid 0x0FF).valid.getLsbD 8 = false := by
  unfold SquareGrid
  decide +kernel

theorem witness_BchEncodersComplete : State.reset.halt = false := rfl

/-- A word each decoder corrects and one each rejects (R266, R286). -/
theorem witness_BchDecodersResult :
    State.reset.halt = false ∧ fmtdecode 0x77C5 = some ⟨0x77C4 ^^^ 0x5412, 1⟩ ∧ fmtdecode 0 = none ∧
      verdecode defaultRom 0x07C95 = some ⟨0x07C94, 1⟩ ∧ verdecode defaultRom 0 = none := by decide +kernel

theorem witness_FieldLaws : (254 : Nat) < 255 ∧ (2 : Byte) ≠ 0 := by decide

theorem witness_GeneratorRoots : (0 : Nat) ≤ 255 ∧ (255 : Nat) ≤ 255 := by decide

theorem witness_CheckCodewords : (255 : Nat) ≤ 255 ∧ [(1 : Byte), 2].length = [(3 : Byte), 4].length := by decide

theorem witness_CodewordIffSyndromesZero :
    2 ≤ [(1 : Byte), 3, 2].length ∧ [(1 : Byte), 3, 2].length ≤ 255 ∧ ∀ x ∈ syndromes [1, 3, 2] 2, x = 0 := by decide

theorem witness_CorrectorSound :
    2 ≤ [(1 : Byte), 3, 3].length ∧ [(1 : Byte), 3, 3].length ≤ 255 ∧ rscorrect [1, 3, 3] 2 = some ([1, 3, 2], 1) := by
  decide +kernel

theorem witness_CorrectorComplete :
    2 ≤ [(1 : Byte), 3, 3].length ∧ [(1 : Byte), 3, 3].length ≤ 255 ∧ [(1 : Byte), 3, 2].length = [(1 : Byte), 3, 3].length ∧
      (∀ x ∈ syndromes [1, 3, 2] 2, x = 0) ∧ 2 * distance [1, 3, 3] [1, 3, 2] ≤ 2 := by decide

theorem witness_ModeAndMinimumVersion : [(0x30 : Byte)] ≠ [] := by decide

/-- A stream one bit below the capacity and one that fills it; one codeword cut from eight bits; texts of digits and of
alphanumeric characters with every rest, the greatest number of 10 bits, a byte. -/
theorem witness_PackedStreamShape :
    72 % 8 = 0 ∧ (List.replicate 71 true).length ≤ 72 ∧ (List.replicate 72 true).length ≤ 72 ∧
      8 * 1 ≤ (List.replicate 8 true).length ∧ 1023 < 2 ^ 10 ∧
      (∀ b ∈ ([0x30, 0x39, 0x30, 0x39, 0x39] : List Byte), 0x30 ≤ b.toNat ∧ b.toNat ≤ 0x39) ∧
      ([0x30, 0x39, 0x30, 0x39, 0x39] : List Byte).length % 3 = 2 ∧ ([0x30, 0x39, 0x30, 0x39] : List Byte).length % 3 = 1 ∧
      (∀ b ∈ ([0x3A, 0x20, 0x5A] : List Byte), charClass b ≠ .byte) ∧ ([0x3A, 0x20, 0x5A] : List Byte).length % 2 = 1 ∧
      0 < [(0xFF : Byte)].length := by decide

theorem witness_ScanCoversDataCells :
    1 ≤ 1 ∧ 40 ≤ 40 ∧ (List.replicate (scanOrder (typeGrid 1 []) 21).length false).length =
      (scanOrder (typeGrid 1 []) 21).length := by simp

/-- The centre of the first finder, a separator cell, both timing lines of version 1, and a finder cell of version 7, none touched
by an alignment pattern; both ends of the format strips; versions below 7 and from 7 on; the coordinates of version 7, whose
patterns cross the timing lines, are well-formed. -/
theorem witness_FunctionalPatterns :
    (∀ p ∈ [(3, 3), (7, 7), (6, 8), (8, 6), (13, 8), (20, 0)], p.1 < 4 * 1 + 17 ∧ p.2 < 4 * 1 + 17 ∧
        ∀ q ∈ alignmentCentres (4 * 1 + 17) [], alignmentAt q.1 q.2 p.1 p.2 = none) ∧
      (∀ q ∈ alignmentCentres (4 * 7 + 17) [6, 22, 38], alignmentAt q.1 q.2 0 44 = none) ∧
      ((8 ≤ 8 ∧ 8 ≠ 6) ∧ 21 - 8 ≤ 20 ∧ 20 < 21) ∧ 6 < 7 ∧ 7 ≤ 7 ∧ (6, 22) ∈ alignmentCentres (4 * 7 + 17) [6, 22, 38] ∧
      AlignPremise 7 [6, 22, 38] := by
  unfold AlignPremise
  decide +kernel

theorem witness_PenaltyScores : 177 ≤ 177 := by decide

/-- Three and four flipped bits of the code of version 7, a table that holds the version codes, two different codes. -/
theorem witness_BchInjectedErrors :
    VerrefPremise defaultRom ∧ (7 : BitVec 6) ≠ 8 ∧ (0 : BitVec 5) ≠ 1 ∧ weight (7 : BitVec 15) ≤ 3 ∧
      weight (7 : BitVec 18) ≤ 3 ∧ weight (15 : BitVec 18) = 4 ∧ 7 ≤ (7 : BitVec 6).toNat ∧ (40 : BitVec 6).toNat ≤ 40 := by
  refine ⟨?_, by decide, by decide, by decide, by decide, by decide, by decide, by decide⟩
  unfold VerrefPremise
  decide +kernel

theorem witness_FinalMatrixComplete :
    ControlInv exampleFinal ∧ Coherent exampleFinal ∧ exampleFinal.valid.getLsbD 9 = true ∧ TablesFit exampleFinal ∧
      20 < 4 * exampleFinal.version.toNat + 17 :=
  ⟨exampleFinal_controlInv, exampleFinal_coherent, by decide, tablesFit_1H rfl rfl rfl, by decide⟩

/-- The first and the last version; the longest texts and one character more. -/
theorem witness_DefaultTablesMeetPremises : 1 ≤ 1 ∧ 40 ≤ 40 ∧ Fits defaultRom 40 0b01 .numeric 7089 ∧
    ¬ Fits defaultRom 40 0b01 .numeric 7090 := by
  unfold Fits
  decide +kernel

end Sys2Proof.Tests
end

section
/-! The stand-alone commands leave the pipeline alone (00_scope.md R18, 43_rs_decoder.md R177,
70_reset_and_hazards.md R374). -/

namespace Sys2Proof.Machine

/-! ### Lengths of polynomials and check codewords (R137, R151, R174) -/

@[simp] theorem xorLists_length (p q : List Byte) : (xorLists p q).length = max p.length q.length := by
  induction p, q using xorLists.induct with
  | case1 q => simp [xorLists]
  | case2 p h => cases p <;> simp [xorLists]
  | case3 a p b q ih => simp [xorLists, ih, Nat.succ_max_succ]

/-- The degrees of the factors add up. -/
theorem polyMul_length {q : List Byte} (hq : q ≠ []) {p : List Byte} (hp : p ≠ []) :
    (polyMul p q).length = p.length + q.length - 1 := by
  have hq' := List.length_pos_iff.mpr hq
  induction p with
  | nil => exact (hp rfl).elim
  | cons a p ih =>
    cases p with
    | nil => simp [polyMul]
    | cons b p =>
      have ih := ih (List.cons_ne_nil b p)
      simp only [polyMul, xorLists_length, List.length_map, List.length_cons] at ih ⊢
      omega

theorem genpoly_succ (n : Nat) : genpoly (n + 1) = polyMul (genpoly n) [1, gfExp n] := by
  simp [genpoly, List.range_succ]

@[simp] theorem genpoly_length (n : Nat) : (genpoly n).length = n + 1 := by
  induction n with
  | zero => rfl
  | succ n ih =>
    have hne : genpoly n ≠ [] := List.ne_nil_of_length_eq_add_one ih
    rw [genpoly_succ, polyMul_length (by simp) hne, ih]
    rfl

/-- A step of the division drops the leading coefficient of a dividend at least as long as the divisor. -/
theorem divStep_length {g m : List Byte} (h : g.length ≤ m.length) : (divStep g m).length = m.length - 1 := by
  cases m with
  | nil => rfl
  | cons c m =>
    simp only [List.length_cons] at h
    by_cases hc : c = 0
    · rw [divStep, if_pos hc]
      rfl
    · rw [divStep, if_neg hc]
      simp only [List.length_tail, xorLists_length, List.length_map, List.length_cons]
      omega

theorem divide_length {g : List Byte} (k : Nat) {m : List Byte} (h : k = 0 ∨ g.length + k ≤ m.length + 1) :
    (divide g k m).length = m.length - k := by
  induction k generalizing m with
  | zero => rfl
  | succ k ih =>
    have hs := divStep_length (g := g) (m := m) (by omega)
    rw [divide, ih (by omega), hs]
    omega

/-- There are `n` check codewords (R151). -/
@[simp] theorem rsecc_length (data : List Byte) (n : Nat) : (rsecc data n).length = n := by
  rw [rsecc, divide_length _ (by simp; omega)]
  simp

theorem applyErrors_length {om cd : List Byte} {len : Nat} {ps : List Nat} {r r' : List Byte}
    (h : applyErrors om cd len ps r = some r') : r'.length = r.length := by
  induction ps generalizing r with
  | nil => simp_all [applyErrors]
  | cons p ps ih =>
    unfold applyErrors at h
    split at h
    · simp at h
    · simpa using ih h

/-- A corrected block is as long as the received one (R174). -/
theorem rscorrect_length {r c : List Byte} {n e : Nat} (h : rscorrect r n = some (c, e)) : c.length = r.length := by
  unfold rscorrect at h
  dsimp only at h
  split at h
  · simp_all
  · split at h
    · simp at h
    · split at h
      · simp at h
      · split at h
        · simp at h
        · next r' hr =>
          split at h
          · obtain ⟨rfl, -⟩ : r' = c ∧ _ := by simpa using h
            exact applyErrors_length hr
          · simp at h

/-! ### Stand-alone commands (R18) -/

/-- What a stand-alone command may leave `s` in: a state that differs in the report, RES0, RES1, RES2, GEN, SYN, the bits 10
and 11 of VALID, and bytes of BLK only. -/
def LeavesPipeline (s t : State) : Prop :=
  { t.withReportOf s with res0 := s.res0, res1 := s.res1, res2 := s.res2, gen := s.gen, syn := s.syn, mem := s.mem } = s ∧
    t.valid &&& 0x3FF = s.valid &&& 0x3FF ∧
    ∀ a, (a < blkBase ∨ blkBase + 256 ≤ a) → readByte t a = readByte s a

theorem LeavesPipeline.refl (s : State) : LeavesPipeline s s := ⟨rfl, rfl, fun _ _ => rfl⟩

theorem LeavesPipeline.complete {s t : State} (h : LeavesPipeline s t) : LeavesPipeline s (complete t) := h

/-- An error that is not fatal leaves HALT as it is (R341). -/
theorem LeavesPipeline.raise {s t : State} (h : LeavesPipeline s t) {e : Error} (he : isFatal e = false) (w : Word) :
    LeavesPipeline s (raise e w t) := by
  obtain ⟨hfields, hvalid, hmem⟩ := h
  refine ⟨?_, hvalid, hmem⟩
  simpa [State.withReportOf, Machine.raise, he] using hfields

theorem LeavesPipeline.markValid {s t : State} (h : LeavesPipeline s t) {k : Nat} (hk : k = GENV ∨ k = SYNV) :
    LeavesPipeline s (markValid k t) := by
  obtain ⟨hfields, hvalid, hmem⟩ := h
  refine ⟨hfields, ?_, hmem⟩
  have hmask : validBit k &&& 0x3FF = 0#12 := by rcases hk with rfl | rfl <;> decide
  rw [markValid_valid, BitVec.and_or_distrib_right, hmask, BitVec.or_zero, hvalid]

/-- A write that stays within BLK touches no pipeline state. -/
theorem LeavesPipeline.writeBlk {s t : State} (h : LeavesPipeline s t) {i : Nat} {bs : List Byte}
    (hlen : i + bs.length ≤ 256) : LeavesPipeline s (writeBlk i bs t) := by
  obtain ⟨hfields, hvalid, hmem⟩ := h
  refine ⟨hfields, hvalid, fun a ha => ?_⟩
  exact (readByte_writeBytes_other t bs (by omega)).trans (hmem a ha)

/-- The results of the stand-alone commands are no pipeline state. -/
theorem leavesPipeline_results (s : State) (r0 r1 r2 : Word) (g y : List Byte) :
    LeavesPipeline s { s with res0 := r0, res1 := r1, res2 := r2, gen := g, syn := y } :=
  ⟨rfl, rfl, fun _ _ => rfl⟩

theorem recordSyndromes_leavesPipeline (r : List Byte) (n : Nat) (s : State) :
    LeavesPipeline s (recordSyndromes r n s) :=
  (leavesPipeline_results s _ s.res1 s.res2 s.gen _).markValid (.inr rfl)

/-- A rule ends, completing or in an error that is not fatal, in a state that leaves the pipeline of `s` alone. -/
def RuleResult.LeavesPipeline (s : State) : RuleResult → Prop
  | .done t => Machine.LeavesPipeline s t
  | .raised e t => isFatal e = false ∧ Machine.LeavesPipeline s t

theorem ruleRsenc_leavesPipeline {k n : BitVec 8} (h : rsencInRange k n = true) (s : State) :
    (ruleRsenc k n s).LeavesPipeline s := by
  have hkn : k.toNat + n.toNat ≤ 255 := of_decide_eq_true h
  exact ((leavesPipeline_results s _ s.res1 s.res2 _ s.syn).writeBlk (by rw [rsecc_length]; omega)).markValid (.inl rfl)

theorem ruleRscor_leavesPipeline (len n : BitVec 8) (s : State) : (ruleRscor len n s).LeavesPipeline s := by
  have hrec := recordSyndromes_leavesPipeline (blkBytes s len.toNat) n.toNat s
  unfold ruleRscor
  dsimp only
  split
  · next c e hc =>
    have hlen : c.length = len.toNat := by simpa [blkBytes] using rscorrect_length hc
    exact hrec.writeBlk (by omega)
  · exact ⟨rfl, hrec⟩

theorem ruleFmtdec_leavesPipeline (raw : BitVec 15) (s : State) : (ruleFmtdec raw s).LeavesPipeline s := by
  unfold ruleFmtdec
  split
  · exact leavesPipeline_results s _ _ _ s.gen s.syn
  · exact ⟨rfl, leavesPipeline_results s _ _ _ s.gen s.syn⟩

theorem ruleVerdec_leavesPipeline (raw : BitVec 18) (s : State) : (ruleVerdec raw s).LeavesPipeline s := by
  unfold ruleVerdec
  split
  · exact leavesPipeline_results s _ _ _ s.gen s.syn
  · exact ⟨rfl, leavesPipeline_results s _ _ _ s.gen s.syn⟩

/-- The rule of a stand-alone command whose operands are in range leaves the pipeline alone. -/
theorem ruleOf_leavesPipeline {i : Instr} {s : State} (hi : standAlone i = true) (ho : operandsOk i s = true) :
    (ruleOf i s).LeavesPipeline s := by
  cases i with
  | gfmul a b => exact leavesPipeline_results s _ s.res1 s.res2 s.gen s.syn
  | gfgen n => exact (leavesPipeline_results s _ s.res1 s.res2 _ s.syn).markValid (.inl rfl)
  | rsenc k n => exact ruleRsenc_leavesPipeline ho s
  | rssyn len n => exact recordSyndromes_leavesPipeline _ _ s
  | rscor len n => exact ruleRscor_leavesPipeline len n s
  | fmtenc level mask => exact leavesPipeline_results s _ s.res1 s.res2 s.gen s.syn
  | fmtdec raw => exact ruleFmtdec_leavesPipeline raw s
  | verenc version => exact leavesPipeline_results s _ s.res1 s.res2 s.gen s.syn
  | verdec raw => exact ruleVerdec_leavesPipeline raw s
  | _ => exact absurd hi Bool.false_ne_true

/-- A command leaves the pipeline alone if its rule does and raises no fatal error. -/
theorem command_leavesPipeline {i : Instr} {operandsOk ready : Bool} {rule : State → RuleResult} {s : State}
    (hrule : operandsOk = true → (rule s).LeavesPipeline s) :
    LeavesPipeline s (command i operandsOk ready rule s) := by
  rcases command_cases i operandsOk ready rule s with ⟨-, h⟩ | ⟨-, -, h⟩ | ⟨-, -, -, h⟩ | ⟨-, ho, -, hr⟩
  · exact h ▸ (LeavesPipeline.refl s).raise rfl _
  · exact h ▸ (LeavesPipeline.refl s).raise rfl _
  · exact h ▸ (LeavesPipeline.refl s).raise rfl _
  · have hres := hrule ho
    rcases hr with ⟨t, ht, h⟩ | ⟨e, t, ht, h⟩
    · rw [ht] at hres
      exact h ▸ LeavesPipeline.complete hres
    · rw [ht] at hres
      exact h ▸ hres.2.raise hres.1 _

/-- Settles O13: each of the nine rules writes results and bytes of BLK only, and raises no fatal error. -/
theorem standAloneLeavesPipeline : Obligations.StandAloneLeavesPipeline := by
  intro i s t hi h
  have hne : i ≠ .sreset := by
    rintro rfl
    exact absurd hi Bool.false_ne_true
  rw [exec_eq_command hne] at h
  injection h with h
  exact h ▸ command_leavesPipeline (ruleOf_leavesPipeline hi)

end Sys2Proof.Machine
end

section
/-! Every step keeps the valid bits honest (00_scope.md R18, 10_state.md R24, R25): a stage is a function of the inputs and
of the outputs of the stages before it, and writes its own outputs only. -/

namespace Sys2Proof.Machine

/-! ### What the stages write, by number: 0 the inputs outside of memory, 1 to 9 the outputs of the stage -/

/-- `t` with the outputs of stage `k` as `s` has them. -/
def withOutputsOf (k : Nat) (s t : State) : State :=
  match k with
  | 0 => { t with rom := s.rom, version := s.version, level := s.level, len := s.len }
  | 1 => { t with mode := s.mode, minver := s.minver, anvalid := s.anvalid, notice := s.notice }
  | 2 => { t with usedbits := s.usedbits, bits := s.bits, capbits := s.capbits, ndcw := s.ndcw, dcw := s.dcw }
  | 3 => { t with dblk := s.dblk, eblk := s.eblk, nblk := s.nblk, nec := s.nec }
  | 4 => { t with icw := s.icw, nicw := s.nicw }
  | 5 => { t with mtype := s.mtype, mfunc := s.mfunc, size := s.size, ndata := s.ndata }
  | 6 => { t with mpre := s.mpre }
  | 7 => { t with mcand := s.mcand, pen := s.pen }
  | 8 => { t with masksel := s.masksel }
  | 9 => { t with formatinfo := s.formatinfo, versioninfo := s.versioninfo, mfinal := s.mfinal }
  | _ => t

/-- The outputs of stage `k`, every other field at its reset value. -/
def outputsOf (k : Nat) (s : State) : State := withOutputsOf k s State.reset

/-- Only the outputs of the stage are taken over. -/
theorem withOutputsOf_congr {k : Nat} {s s' : State} (h : outputsOf k s = outputsOf k s') (t : State) :
    withOutputsOf k s t = withOutputsOf k s' t := by
  have hput : ∀ s, withOutputsOf k (outputsOf k s) t = withOutputsOf k s t := fun s => by
    unfold outputsOf withOutputsOf
    split <;> rfl
  rw [← hput s, h, hput]

theorem withOutputsOf_self (k : Nat) (t : State) : withOutputsOf k t t = t := by
  unfold withOutputsOf
  split <;> rfl

/-- The states agree on the text and on the inputs and outputs of the stages below `k`. -/
structure SameBelow (k : Nat) (s t : State) : Prop where
  text : textBytes s = textBytes t
  outputs : ∀ j, j < k → outputsOf j s = outputsOf j t

theorem SameBelow.mono {j k : Nat} {s t : State} (h : SameBelow k s t) (hjk : j ≤ k) : SameBelow j s t :=
  ⟨h.text, fun i hi => h.outputs i (by omega)⟩

/-! What agreement on the outputs of each stage says that a later stage reads. -/

section
variable {k : Nat} {s t : State} (h : SameBelow k s t)
include h

theorem SameBelow.inputs (hk : 0 < k) : s.rom = t.rom ∧ s.version = t.version ∧ s.level = t.level ∧ s.len = t.len := by
  simpa [outputsOf, withOutputsOf] using h.outputs 0 hk

theorem SameBelow.analyzed (hk : 1 < k) :
    s.notice = t.notice ∧ s.mode = t.mode ∧ s.minver = t.minver ∧ s.anvalid = t.anvalid := by
  simpa [outputsOf, withOutputsOf] using h.outputs 1 hk

theorem SameBelow.packed (hk : 2 < k) :
    s.usedbits = t.usedbits ∧ s.capbits = t.capbits ∧ s.ndcw = t.ndcw ∧ s.bits = t.bits ∧ s.dcw = t.dcw := by
  simpa [outputsOf, withOutputsOf] using h.outputs 2 hk

theorem SameBelow.split (hk : 3 < k) : s.nblk = t.nblk ∧ s.nec = t.nec ∧ s.dblk = t.dblk ∧ s.eblk = t.eblk := by
  simpa [outputsOf, withOutputsOf] using h.outputs 3 hk

theorem SameBelow.interleaved (hk : 4 < k) : s.nicw = t.nicw ∧ s.icw = t.icw := by
  simpa [outputsOf, withOutputsOf] using h.outputs 4 hk

theorem SameBelow.initialised (hk : 5 < k) :
    s.size = t.size ∧ s.ndata = t.ndata ∧ s.mtype = t.mtype ∧ s.mfunc = t.mfunc := by
  simpa [outputsOf, withOutputsOf] using h.outputs 5 hk

theorem SameBelow.placed (hk : 6 < k) : s.mpre = t.mpre := by
  simpa [outputsOf, withOutputsOf] using h.outputs 6 hk

theorem SameBelow.evaluated (hk : 7 < k) : s.pen = t.pen ∧ s.mcand = t.mcand := by
  simpa [outputsOf, withOutputsOf] using h.outputs 7 hk

theorem SameBelow.selected (hk : 8 < k) : s.masksel = t.masksel := by
  simpa [outputsOf, withOutputsOf] using h.outputs 8 hk

theorem SameBelow.currentCap (hk : 0 < k) : currentCap s = currentCap t := by
  obtain ⟨hrom, hversion, hlevel, -⟩ := h.inputs hk
  rw [Machine.currentCap, hrom, hversion, hlevel, Machine.currentCap]

theorem SameBelow.currentPlan (hk : 0 < k) : currentPlan s = currentPlan t := by
  obtain ⟨hrom, hversion, hlevel, -⟩ := h.inputs hk
  rw [Machine.currentPlan, hrom, hversion, hlevel, Machine.currentPlan]

theorem SameBelow.analyzedMode : analyzedMode s = analyzedMode t := by
  rw [Machine.analyzedMode, h.text, Machine.analyzedMode]

theorem SameBelow.analyzedMinimum (hk : 0 < k) : analyzedMinimum s = analyzedMinimum t := by
  obtain ⟨hrom, -, hlevel, hlen⟩ := h.inputs hk
  rw [Machine.analyzedMinimum, hrom, hlevel, hlen, h.analyzedMode, Machine.analyzedMinimum]

end

/-! ### How a stage rule ends -/

/-- When the rule of stage `k` completes. -/
def stageOk : Nat → State → Prop
  | 1, s => textFits s = true
  | 3, s => planData (currentPlan s).groups = s.ndcw.toNat
  | 6, s => remainderOk s
  | _, _ => True

/-- The state stage `k` completes in. -/
def stageDone : Nat → State → State
  | 1 => analyzedState
  | 2 => packedState
  | 3 => splitState
  | 4 => interleavedState
  | 5 => initialisedState
  | 6 => placedState
  | 7 => evaluatedState
  | 8 => selectedState
  | 9 => stampedState
  | _ => id

/-- The state stage `k` raises its error in. -/
def stageRaised : Nat → State → State
  | 1 => recordAnalysis
  | k => clearStages k

theorem remainderOk_iff (s : State) :
    remainderOk s ↔ ¬ (s.ndata.toNat < 8 * s.nicw.toNat ∨ 7 < s.ndata.toNat - 8 * s.nicw.toNat) := by
  unfold remainderOk
  omega

theorem stageRule_done {k : Nat} {s : State} (h : stageOk k s) : stageRule k s = .done (stageDone k s) := by
  unfold stageRule
  split
  · exact ruleAnalyze_done h
  · exact rulePack_done s
  · exact ruleRssplit_done h
  · exact ruleRsilv_done s
  · exact ruleMatinit_done s
  · exact ruleMatplace_done h
  · exact ruleMaskeval_done s
  · exact ruleMasksel_done s
  · exact ruleInfostamp_done s
  · simp [stageDone]

theorem stageRule_raised {k : Nat} {s : State} (h : ¬ stageOk k s) : ∃ e, stageRule k s = .raised e (stageRaised k s) := by
  unfold stageOk at h
  split at h
  · exact ⟨_, if_neg h⟩
  · exact ⟨_, if_pos h⟩
  · exact ⟨_, if_pos (not_not.mp (mt (remainderOk_iff s).mpr h))⟩
  · exact (h trivial).elim

/-! ### A stage is a function of the stages before it -/

theorem SameBelow.stageOk {k : Nat} {s t : State} (h : SameBelow k s t) (hok : stageOk k s) : stageOk k t := by
  unfold Machine.stageOk at hok ⊢
  split
  · obtain ⟨-, hversion, -, hlen⟩ := h.inputs (by decide)
    simpa only [textFits, h.analyzedMinimum (by decide), h.analyzedMode, hversion, hlen, h.currentCap (by decide)]
      using hok
  · obtain ⟨-, -, hndcw, -, -⟩ := h.packed (by decide)
    simpa only [h.currentPlan (by decide), hndcw] using hok
  · obtain ⟨hnicw, -⟩ := h.interleaved (by decide)
    obtain ⟨-, hndata, -, -⟩ := h.initialised (by decide)
    simpa only [remainderOk, hndata, hnicw] using hok
  · trivial

section
variable {s t : State}

theorem outputsOf_analyzedState (h : SameBelow 1 s t) : outputsOf 1 (analyzedState s) = outputsOf 1 (analyzedState t) := by
  simp [outputsOf, withOutputsOf, analyzedState, recordAnalysis, h.analyzedMode, h.text, h.analyzedMinimum]

theorem outputsOf_packedState (h : SameBelow 2 s t) : outputsOf 2 (packedState s) = outputsOf 2 (packedState t) := by
  obtain ⟨-, hversion, -, -⟩ := h.inputs (by decide)
  obtain ⟨-, hmode, -, -⟩ := h.analyzed (by decide)
  simp [outputsOf, withOutputsOf, packedState, h.currentCap, h.text, hmode, hversion]

theorem outputsOf_splitState (h : SameBelow 3 s t) : outputsOf 3 (splitState s) = outputsOf 3 (splitState t) := by
  obtain ⟨-, -, -, -, hdcw⟩ := h.packed (by decide)
  simp [outputsOf, withOutputsOf, splitState, h.currentPlan, hdcw]

theorem outputsOf_interleavedState (h : SameBelow 4 s t) :
    outputsOf 4 (interleavedState s) = outputsOf 4 (interleavedState t) := by
  obtain ⟨-, -, hndcw, -, -⟩ := h.packed (by decide)
  obtain ⟨hnblk, hnec, hdblk, heblk⟩ := h.split (by decide)
  simp [outputsOf, withOutputsOf, interleavedState, hndcw, hdblk, heblk, hnblk, hnec]

theorem outputsOf_initialisedState (h : SameBelow 5 s t) :
    outputsOf 5 (initialisedState s) = outputsOf 5 (initialisedState t) := by
  obtain ⟨hrom, hversion, -, -⟩ := h.inputs (by decide)
  simp [outputsOf, withOutputsOf, initialisedState, hrom, hversion]

theorem outputsOf_placedState (h : SameBelow 6 s t) : outputsOf 6 (placedState s) = outputsOf 6 (placedState t) := by
  obtain ⟨hnicw, hicw⟩ := h.interleaved (by decide)
  obtain ⟨hsize, hndata, hmtype, hmfunc⟩ := h.initialised (by decide)
  simp [outputsOf, withOutputsOf, placedState, hicw, hnicw, hmtype, hmfunc, hsize, hndata]

theorem outputsOf_evaluatedState (h : SameBelow 7 s t) :
    outputsOf 7 (evaluatedState s) = outputsOf 7 (evaluatedState t) := by
  obtain ⟨hsize, -, hmtype, -⟩ := h.initialised (by decide)
  have hcand : candidates s = candidates t := by
    rw [candidates, hmtype, hsize, h.placed (by decide), candidates]
  simp [outputsOf, withOutputsOf, evaluatedState, hcand, hsize]

theorem outputsOf_selectedState (h : SameBelow 8 s t) : outputsOf 8 (selectedState s) = outputsOf 8 (selectedState t) := by
  obtain ⟨hpen, -⟩ := h.evaluated (by decide)
  simp [outputsOf, withOutputsOf, selectedState, maskTotals, hpen]

theorem outputsOf_stampedState (h : SameBelow 9 s t) : outputsOf 9 (stampedState s) = outputsOf 9 (stampedState t) := by
  obtain ⟨-, hversion, hlevel, -⟩ := h.inputs (by decide)
  obtain ⟨-, hmcand⟩ := h.evaluated (by decide)
  simp [outputsOf, withOutputsOf, stampedState, selectedCandidate, hversion, hlevel, hmcand, h.selected]

end

/-- A stage's outputs are a function of the text, the inputs and the outputs of the stages before it. -/
theorem SameBelow.stageDone {k : Nat} {s t : State} (h : SameBelow k s t) (h1 : 1 ≤ k) (h9 : k ≤ 9) :
    outputsOf k (stageDone k s) = outputsOf k (stageDone k t) := by
  interval_cases k
  · exact outputsOf_analyzedState h
  · exact outputsOf_packedState h
  · exact outputsOf_splitState h
  · exact outputsOf_interleavedState h
  · exact outputsOf_initialisedState h
  · exact outputsOf_placedState h
  · exact outputsOf_evaluatedState h
  · exact outputsOf_selectedState h
  · exact outputsOf_stampedState h

/-! ### What a stage leaves as it is -/

/-- From `s` to `t` at most the outputs of stage `k`, VALID and the model's bits of Log 6 change. -/
def WritesOnlyOutputs (k : Nat) (s t : State) : Prop :=
  withOutputsOf k s { t with valid := s.valid, held := s.held } = s

theorem writesOnlyOutputs_stageDone {k : Nat} (h1 : 1 ≤ k) (h9 : k ≤ 9) (s : State) :
    WritesOnlyOutputs k s (stageDone k s) := by
  interval_cases k <;> exact rfl

theorem writesOnlyOutputs_stageRaised {k : Nat} (h1 : 1 ≤ k) (h9 : k ≤ 9) (s : State) :
    WritesOnlyOutputs k s (stageRaised k s) := by
  interval_cases k <;> exact rfl

/-- Different stages write different components, and none writes an input. -/
theorem WritesOnlyOutputs.sameBelow {k : Nat} {s t : State} (h : WritesOnlyOutputs k s t) (h1 : 1 ≤ k) (h9 : k ≤ 9) :
    SameBelow k s t where
  text := (congrArg textBytes h).symm.trans (by interval_cases k <;> rfl)
  outputs j hj := (congrArg (outputsOf j) h).symm.trans (by interval_cases k <;> interval_cases j <;> rfl)

theorem isValid_stageDone {k : Nat} (h1 : 1 ≤ k) (h9 : k ≤ 9) {j : Nat} (hj : j ≤ 9) {s : State}
    (h : isValid j (stageDone k s) = true) : j = k ∨ (j < k ∧ isValid j s = true) := by
  obtain rfl | h8 : k = 9 ∨ k ≤ 8 := by omega
  · have h : isValid j (markValid STAMPED s) = true := h
    simp only [isValid_markValid (show STAMPED < 12 by decide), Bool.or_eq_true, decide_eq_true_eq] at h
    rcases h with hs | rfl
    · exact (Nat.eq_or_lt_of_le hj).imp_right fun hlt => ⟨hlt, hs⟩
    · exact .inl rfl
  · have hv : (stageDone k s).valid = (markValid k (clearStages k s)).valid := by interval_cases k <;> rfl
    have h : isValid j (markValid k (clearStages k s)) = true := by rwa [isValid, ← hv]
    simp only [isValid_markValid (show k < 12 by omega), isValid_clearStages (show k < 10 by omega), Bool.or_eq_true,
      Bool.and_eq_true, Bool.not_eq_true', decide_eq_true_eq, decide_eq_false_iff_not] at h
    rcases h with ⟨hs, hjk⟩ | rfl
    · exact .inr ⟨by omega, hs⟩
    · exact .inl rfl

theorem isValid_stageRaised {k : Nat} (h1 : 1 ≤ k) (h9 : k ≤ 9) {j : Nat} (hj : j ≤ 9) {s : State}
    (h : isValid j (stageRaised k s) = true) : j < k ∧ isValid j s = true := by
  have hv : (stageRaised k s).valid = (clearStages k s).valid := by interval_cases k <;> rfl
  have h : isValid j (clearStages k s) = true := by rwa [isValid, ← hv]
  simp only [isValid_clearStages (show k < 10 by omega), Bool.and_eq_true, Bool.not_eq_true',
    decide_eq_false_iff_not] at h
  obtain ⟨hs, hjk⟩ := h
  exact ⟨by omega, hs⟩

/-! ### Honest bits -/

theorem outputsOf_flags (k : Nat) (t : State) (v h : BitVec 12) :
    outputsOf k { t with valid := v, held := h } = outputsOf k t := by
  unfold outputsOf withOutputsOf
  split <;> rfl

/-- A stage's rule changes no register and no buffer exactly when it completes with the outputs the state has. -/
theorem honest_stageRule_iff {k : Nat} (h1 : 1 ≤ k) (h9 : k ≤ 9) (s : State) :
    Honest (stageRule k) s ↔ stageOk k s ∧ outputsOf k (stageDone k s) = outputsOf k s := by
  constructor
  · rintro ⟨t, ht, hts⟩
    by_cases hok : stageOk k s
    · obtain rfl : stageDone k s = t := by simpa [stageRule_done hok] using ht
      exact ⟨hok, (outputsOf_flags k _ _ _).symm.trans (congrArg (outputsOf k) hts)⟩
    · obtain ⟨e, he⟩ := stageRule_raised hok
      simp [he] at ht
  · rintro ⟨hok, hout⟩
    have hout' := (outputsOf_flags k (stageDone k s) s.valid s.held).trans hout
    refine ⟨_, stageRule_done hok, ?_⟩
    rw [← withOutputsOf_self k { stageDone k s with valid := s.valid, held := s.held }, withOutputsOf_congr hout']
    exact writesOnlyOutputs_stageDone h1 h9 s

/-- What `Coherent` says of bit `k` of VALID where it is set. -/
def HonestBit (k : Nat) (s : State) : Prop :=
  (k = 1 → versionInRange s = true) ∧ Honest (stageRule k) s

theorem coherent_iff (s : State) : Coherent s ↔ ∀ k, 1 ≤ k → k ≤ 9 → isValid k s = true → HonestBit k s := by
  constructor
  · rintro ⟨hversion, hhonest⟩ k h1 h9 hk
    refine ⟨?_, hhonest k h1 h9 hk⟩
    rintro rfl
    exact decide_eq_true (hversion hk)
  · intro h
    exact ⟨fun hk => of_decide_eq_true ((h 1 (by decide) (by decide) hk).1 rfl), fun k h1 h9 hk => (h k h1 h9 hk).2⟩

/-- Whether a bit is honest depends only on what its stage reads and writes. -/
theorem HonestBit.congr {k : Nat} {s t : State} (hs : HonestBit k s) (h1 : 1 ≤ k) (h9 : k ≤ 9)
    (h : SameBelow (k + 1) s t) : HonestBit k t := by
  obtain ⟨hversion, hhonest⟩ := hs
  obtain ⟨hok, hout⟩ := (honest_stageRule_iff h1 h9 s).mp hhonest
  have hbelow := h.mono k.le_succ
  constructor
  · obtain ⟨-, hv, -, -⟩ := h.inputs k.succ_pos
    rwa [versionInRange, hv] at hversion
  · refine (honest_stageRule_iff h1 h9 t).mpr ⟨hbelow.stageOk hok, ?_⟩
    rw [← hbelow.stageDone h1 h9, hout, h.outputs k k.lt_succ_self]

/-- A stage that completed would write the same outputs again: it does not read them. -/
theorem honestBit_stageDone {k : Nat} {s : State} (h1 : 1 ≤ k) (h9 : k ≤ 9) (hok : stageOk k s)
    (hversion : k = 1 → versionInRange s = true) : HonestBit k (stageDone k s) := by
  have hbelow := (writesOnlyOutputs_stageDone h1 h9 s).sameBelow h1 h9
  constructor
  · rintro rfl
    exact hversion rfl
  · exact (honest_stageRule_iff h1 h9 _).mpr ⟨hbelow.stageOk hok, (hbelow.stageDone h1 h9).symm⟩

/-- Coherence passes to a state that agrees below stage `k` and has no bits set but those below `k` and honest ones. -/
theorem Coherent.of_sameBelow {k : Nat} {s t : State} (hs : Coherent s) (h : SameBelow k s t)
    (hv : ∀ j, 1 ≤ j → j ≤ 9 → isValid j t = true → (j < k ∧ isValid j s = true) ∨ HonestBit j t) :
    Coherent t := by
  refine (coherent_iff t).mpr fun j h1 h9 hj => ?_
  rcases hv j h1 h9 hj with ⟨hjk, hjs⟩ | hj
  · exact ((coherent_iff s).mp hs j h1 h9 hjs).congr h1 h9 (h.mono hjk)
  · exact hj

/-- Coherence does not depend on what no stage reads or writes. -/
theorem Coherent.of_same {s t : State} (hs : Coherent s) (h : SameBelow 10 s t)
    (hv : ∀ j, j ≤ 9 → isValid j t = isValid j s) : Coherent t :=
  hs.of_sameBelow h fun j _ h9 hj => .inl ⟨by omega, hv j h9 ▸ hj⟩

/-- The host's side of the port and the report are neither read nor written by a stage. -/
theorem Coherent.with_port_and_report {s : State} (hs : Coherent s) (pending : List HostEvent) (hostData : Word)
    (freeCtr : Nat) (done err halt : Bool) (errcode : BitVec 4) (errinfo : Word) :
    Coherent { s with
      pending := pending, hostData := hostData, freeCtr := freeCtr
      done := done, err := err, halt := halt, errcode := errcode, errinfo := errinfo } :=
  hs.of_same ⟨rfl, fun j hj => by interval_cases j <;> rfl⟩ fun _ _ => rfl

theorem coherent_of_no_stage {s : State} (h : ∀ k, 1 ≤ k → k ≤ 9 → isValid k s = false) : Coherent s :=
  (coherent_iff s).mpr fun k h1 h9 hk => absurd hk (by simp [h k h1 h9])

theorem coherent_clearStages_analyzed (s : State) : Coherent (clearStages ANALYZED s) :=
  coherent_of_no_stage fun k h1 h9 => by simp [isValid_clearStages (show ANALYZED < 10 by decide), h1, h9]

/-- After a reset only GFRDY is set (R50). -/
theorem coherent_of_reset_valid {s : State} (h : s.valid = 0x001) : Coherent s :=
  coherent_of_no_stage fun k h1 h9 => by
    rw [isValid, h]
    interval_cases k <;> rfl

/-! ### Stage commands and ENCODE -/

/-- Both ends of a rule satisfy `P`. -/
def RuleResult.All (P : State → Prop) : RuleResult → Prop
  | .done t => P t
  | .raised _ t => P t

theorem RuleResult.All.andThen {P : State → Prop} {r : RuleResult} {next : State → RuleResult} (hr : r.All P)
    (hnext : ∀ t, P t → (next t).All P) : (r.andThen next).All P := by
  cases r with
  | done t => exact hnext t hr
  | raised e t => exact hr

theorem Coherent.stageRule {k : Nat} {s : State} (hs : Coherent s) (h1 : 1 ≤ k) (h9 : k ≤ 9)
    (hversion : k = 1 → versionInRange s = true) : (stageRule k s).All Coherent := by
  by_cases hok : Machine.stageOk k s
  · rw [stageRule_done hok]
    refine hs.of_sameBelow ((writesOnlyOutputs_stageDone h1 h9 s).sameBelow h1 h9) fun j _ hj9 hj => ?_
    rcases isValid_stageDone h1 h9 hj9 hj with rfl | hj
    · exact .inr (honestBit_stageDone h1 h9 hok hversion)
    · exact .inl hj
  · obtain ⟨e, he⟩ := stageRule_raised hok
    rw [he]
    exact hs.of_sameBelow ((writesOnlyOutputs_stageRaised h1 h9 s).sameBelow h1 h9) fun j _ hj9 hj =>
      .inl (isValid_stageRaised h1 h9 hj9 hj)

theorem ruleEncode_coherent {s : State} (hversion : versionInRange s = true) : (ruleEncode s).All Coherent := by
  have hlater : ∀ k, 2 ≤ k → k ≤ 9 → ∀ t, Coherent t → (stageRule k t).All Coherent := fun k h2 h9 t ht =>
    ht.stageRule (by omega) h9 (by omega)
  have hfirst : (ruleAnalyze (clearStages ANALYZED s)).All Coherent :=
    (coherent_clearStages_analyzed s).stageRule (k := 1) (by decide) (by decide) fun _ => hversion
  unfold ruleEncode stageSequence
  exact hfirst.andThen (hlater 2 (by decide) (by decide)) |>.andThen (hlater 3 (by decide) (by decide))
    |>.andThen (hlater 4 (by decide) (by decide)) |>.andThen (hlater 5 (by decide) (by decide))
    |>.andThen (hlater 6 (by decide) (by decide)) |>.andThen (hlater 7 (by decide) (by decide))
    |>.andThen (hlater 8 (by decide) (by decide)) |>.andThen (hlater 9 (by decide) (by decide))

/-! ### Every command -/

/-- TEXT lies below BLK (R61). -/
theorem textBase_add_le_blkBase : textBase + 8192 ≤ blkBase := by decide

theorem LeavesPipeline.sameBelow {s t : State} (h : LeavesPipeline s t) : SameBelow 10 s t := by
  obtain ⟨hfields, -, hmem⟩ := h
  constructor
  · refine textBytes_congr (congrArg State.len hfields).symm fun a _ ha => (hmem a (.inl ?_)).symm
    exact ha.trans_le textBase_add_le_blkBase
  · intro j hj
    refine (congrArg (outputsOf j) hfields).symm.trans ?_
    interval_cases j <;> rfl

theorem LeavesPipeline.isValid {s t : State} (h : LeavesPipeline s t) {j : Nat} (hj : j ≤ 9) :
    isValid j t = isValid j s := by
  obtain ⟨-, hvalid, -⟩ := h
  have hbit : (0x3FF#12).getLsbD j = true := by interval_cases j <;> rfl
  simpa [Machine.isValid, hbit] using congrArg (BitVec.getLsbD · j) hvalid

theorem Coherent.raise {s : State} (hs : Coherent s) (e : Error) (w : Word) : Coherent (raise e w s) :=
  hs.with_port_and_report _ _ _ _ _ _ _ _

theorem Coherent.complete {s : State} (hs : Coherent s) : Coherent (complete s) :=
  hs.with_port_and_report _ _ _ _ _ _ _ _

theorem Coherent.command {i : Instr} {operandsOk ready : Bool} {rule : State → RuleResult} {s : State} (hs : Coherent s)
    (hrule : operandsOk = true → (rule s).All Coherent) : Coherent (command i operandsOk ready rule s) := by
  refine command_keeps (fun e w _ ht => ht.raise e w) (fun _ ht => ht.complete) hs (fun t ho _ ht => ?_)
    fun e t ho _ ht => ?_
  · simpa [ht, RuleResult.All] using hrule ho
  · simpa [ht, RuleResult.All] using hrule ho

/-- The kinds of commands (R18). -/
theorem instr_kind (i : Instr) : (∃ k, 1 ≤ k ∧ k ≤ 9 ∧ stageCommand k = i) ∨ standAlone i = true ∨
    i = .nop ∨ i = .sreset ∨ i = .encode := by
  cases i with
  | analyze => exact .inl ⟨1, by decide, by decide, rfl⟩
  | pack => exact .inl ⟨2, by decide, by decide, rfl⟩
  | rssplit => exact .inl ⟨3, by decide, by decide, rfl⟩
  | rsilv => exact .inl ⟨4, by decide, by decide, rfl⟩
  | matinit => exact .inl ⟨5, by decide, by decide, rfl⟩
  | matplace => exact .inl ⟨6, by decide, by decide, rfl⟩
  | maskeval => exact .inl ⟨7, by decide, by decide, rfl⟩
  | masksel => exact .inl ⟨8, by decide, by decide, rfl⟩
  | infostamp => exact .inl ⟨9, by decide, by decide, rfl⟩
  | nop => exact .inr (.inr (.inl rfl))
  | sreset => exact .inr (.inr (.inr (.inl rfl)))
  | encode => exact .inr (.inr (.inr (.inr rfl)))
  | _ => exact .inr (.inl rfl)

theorem Coherent.exec {i : Instr} {s t : State} (hs : Coherent s) (h : exec i s = .next t) : Coherent t := by
  rcases instr_kind i with ⟨k, h1, h9, rfl⟩ | hi | rfl | rfl | rfl
  · rw [exec_eq_command (by interval_cases k <;> simp [stageCommand]), ruleOf_stageCommand h1 h9] at h
    injection h with h
    refine h ▸ hs.command fun hoperands => hs.stageRule h1 h9 ?_
    rintro rfl
    exact hoperands
  · have hleaves : LeavesPipeline s t := standAloneLeavesPipeline i s t hi h
    exact hs.of_same hleaves.sameBelow fun _ hj => hleaves.isValid hj
  · injection h with h
    exact h ▸ hs.command fun _ => hs
  · injection h with h
    exact h ▸ (coherent_of_reset_valid rfl).complete
  · injection h with h
    exact h ▸ hs.command ruleEncode_coherent

/-! ### Every step -/

theorem Coherent.hostRead {s : State} (hs : Coherent s) (a : Addr) : Coherent (hostRead a s) := by
  obtain ⟨w, n, h⟩ := hostRead_cases a s
  rw [h]
  exact hs.with_port_and_report _ _ _ _ _ _ _ _

theorem Coherent.writeBlkByte {s : State} (hs : Coherent s) (i : Nat) (b : Byte) : Coherent (writeByte (blkBase + i) b s) := by
  refine hs.of_same ⟨textBytes_congr rfl fun a _ ha => ?_, fun j hj => by interval_cases j <;> rfl⟩ fun _ _ => rfl
  have := textBase_add_le_blkBase
  exact (readByte_writeByte_other s (by omega) b).symm

/-- A write to an input ends the run (R25 (c)); a write to BLK touches nothing a stage reads. -/
theorem Coherent.hostWrite {s : State} (hs : Coherent s) (a : Addr) (w : Word) : Coherent (hostWrite a w s) := by
  rcases hostWrite_cases a w s with h | h | h | h | ⟨i, -, h⟩ | ⟨i, -, h⟩ <;> rw [h]
  · exact hs
  · exact coherent_clearStages_analyzed _
  · exact coherent_clearStages_analyzed _
  · exact coherent_clearStages_analyzed _
  · exact coherent_clearStages_analyzed _
  · exact hs.writeBlkByte i _

/-- Settles O18: a valid bit survives only where neither its stage's outputs nor anything the stage reads changed. -/
theorem stepKeepsCoherence : Obligations.StepKeepsCoherence := by
  intro s t hs h
  have htaken : ∀ rest, Coherent { s with pending := rest } := fun rest =>
    hs.with_port_and_report _ _ _ _ _ _ _ _
  rcases step_cases h with ⟨-, rfl⟩ | ⟨w, rest, i, -, -, he⟩ | ⟨w, rest, e, -, -, rfl⟩ | ⟨a, rest, -, rfl⟩ |
    ⟨a, w, rest, -, -, rfl⟩ | ⟨rest, -, rfl⟩
  · exact hs
  · exact (htaken rest).exec he
  · unfold rejectWord
    split
    · exact (htaken rest).raise _ _
    · exact (htaken rest).raise _ _
  · exact (htaken rest).hostRead a
  · exact (htaken rest).hostWrite a w
  · exact coherent_of_reset_valid rfl

end Sys2Proof.Machine
end

section
/-! What a step may change of the host's side (10_state.md R40, R46, 48_sequencer.md R305, 49_config_tables.md R320): it takes
one event off the queue and no table changes; of VERSION, LEVEL, LEN, TEXT and BLK a command changes only what SRESET resets and
the bytes of BLK that RSENC and RSCOR write. -/

namespace Sys2Proof.Machine

/-! ### Every step answers a next state -/

theorem commandWord_next (w : Word) (s : State) : ∃ t, commandWord w s = .next t := by
  unfold commandWord
  split
  · exact exec_next _ s
  · exact ⟨_, rfl⟩

theorem hostEvent_next (e : HostEvent) (s : State) : ∃ t, hostEvent e s = .next t := by
  cases e with
  | read a => exact ⟨_, rfl⟩
  | write a w =>
    by_cases ha : a = cmdAddr
    · rw [hostEvent, if_pos ha]
      exact commandWord_next w s
    · rw [hostEvent, if_neg ha]
      exact ⟨_, rfl⟩
  | reset => exact ⟨_, rfl⟩

theorem step_idle {s : State} (h : s.pending = []) : step s = .next s := by
  simp [step, h]

theorem step_next (s : State) : ∃ t, step s = .next t := by
  unfold step
  split
  · exact ⟨_, rfl⟩
  · exact hostEvent_next _ _

/-! ### What the rules leave as it is -/

/-- The event queue, the tables, the inputs of the pipeline, and memory with TEXT and BLK. -/
def hostSideOf (s : State) :
    List HostEvent × Rom × BitVec 6 × BitVec 2 × BitVec 13 × Memory × Nat :=
  (s.pending, s.rom, s.version, s.level, s.len, s.mem, s.memEpoch)

theorem hostSideOf_eq_iff {s t : State} :
    hostSideOf t = hostSideOf s ↔ t.pending = s.pending ∧ t.rom = s.rom ∧ t.version = s.version ∧ t.level = s.level ∧
      t.len = s.len ∧ t.mem = s.mem ∧ t.memEpoch = s.memEpoch := by
  simp [hostSideOf]

/-- The outputs of a stage are no part of the host's side. -/
theorem WritesOnlyOutputs.hostSideOf_eq {k : Nat} {s t : State} (h : WritesOnlyOutputs k s t) (h1 : 1 ≤ k) (h9 : k ≤ 9) :
    hostSideOf t = hostSideOf s :=
  .trans (by interval_cases k <;> rfl) (congrArg hostSideOf h)

theorem stageRule_hostSide {k : Nat} (h1 : 1 ≤ k) (h9 : k ≤ 9) (s : State) :
    (stageRule k s).All fun t => hostSideOf t = hostSideOf s := by
  by_cases hok : stageOk k s
  · rw [stageRule_done hok]
    exact (writesOnlyOutputs_stageDone h1 h9 s).hostSideOf_eq h1 h9
  · obtain ⟨e, he⟩ := stageRule_raised hok
    rw [he]
    exact (writesOnlyOutputs_stageRaised h1 h9 s).hostSideOf_eq h1 h9

/-- What every stage rule keeps, the sequence of the stage rules keeps (R302). -/
theorem stageSequence_all {P : State → Prop} (hstage : ∀ k, 1 ≤ k → k ≤ 9 → ∀ t, P t → (stageRule k t).All P) {s : State}
    (hs : P s) : (stageSequence s).All P := by
  unfold stageSequence
  exact (hstage 1 (by decide) (by decide) s hs).andThen (hstage 2 (by decide) (by decide))
    |>.andThen (hstage 3 (by decide) (by decide)) |>.andThen (hstage 4 (by decide) (by decide))
    |>.andThen (hstage 5 (by decide) (by decide)) |>.andThen (hstage 6 (by decide) (by decide))
    |>.andThen (hstage 7 (by decide) (by decide)) |>.andThen (hstage 8 (by decide) (by decide))
    |>.andThen (hstage 9 (by decide) (by decide))

theorem ruleEncode_hostSide (s : State) : (ruleEncode s).All fun t => hostSideOf t = hostSideOf s := by
  refine stageSequence_all (fun k h1 h9 t ht => ?_) (show hostSideOf (clearStages ANALYZED s) = hostSideOf s from rfl)
  rw [← ht]
  exact stageRule_hostSide h1 h9 t

/-- The two commands whose rules write BLK (R152, R175). -/
def WritesBlk (i : Instr) : Prop := (∃ k n, i = .rsenc k n) ∨ ∃ len n, i = .rscor len n

theorem WritesBlk.standAlone {i : Instr} (h : WritesBlk i) : standAlone i = true := by
  rcases h with ⟨k, n, rfl⟩ | ⟨len, n, rfl⟩ <;> rfl

theorem ruleFmtdec_hostSide (raw : BitVec 15) (s : State) :
    (ruleFmtdec raw s).All fun t => hostSideOf t = hostSideOf s := by
  unfold ruleFmtdec
  split <;> exact rfl

theorem ruleVerdec_hostSide (raw : BitVec 18) (s : State) :
    (ruleVerdec raw s).All fun t => hostSideOf t = hostSideOf s := by
  unfold ruleVerdec
  split <;> exact rfl

/-- The other stand-alone commands write results only. -/
theorem ruleOf_hostSide {i : Instr} (hi : standAlone i = true) (hblk : ¬ WritesBlk i) (s : State) :
    (ruleOf i s).All fun t => hostSideOf t = hostSideOf s := by
  cases i with
  | rsenc k n => exact (hblk (.inl ⟨k, n, rfl⟩)).elim
  | rscor len n => exact (hblk (.inr ⟨len, n, rfl⟩)).elim
  | gfmul a b => exact rfl
  | gfgen n => exact rfl
  | rssyn len n => exact rfl
  | fmtenc level mask => exact rfl
  | verenc version => exact rfl
  | fmtdec raw => exact ruleFmtdec_hostSide raw s
  | verdec raw => exact ruleVerdec_hostSide raw s
  | _ => exact absurd hi Bool.false_ne_true

/-! ### What the commands leave as it is -/

/-- The report is no part of the host's side. -/
theorem command_hostSide {i : Instr} {operandsOk ready : Bool} {rule : State → RuleResult} {s : State}
    (hrule : (rule s).All fun t => hostSideOf t = hostSideOf s) :
    hostSideOf (command i operandsOk ready rule s) = hostSideOf s :=
  command_keeps (P := fun t => hostSideOf t = hostSideOf s) (fun _ _ _ ht => ht) (fun _ ht => ht) rfl
    (fun t _ _ ht => by rwa [ht] at hrule) fun e t _ _ ht => by rwa [ht] at hrule

/-- What every command leaves of the host's side: all of it, but for SRESET and the two that write BLK. -/
theorem exec_hostSide_cases {i : Instr} {s t : State} (h : exec i s = .next t) :
    (i = .sreset ∧ t = complete (softReset s)) ∨ (WritesBlk i ∧ LeavesPipeline s t) ∨ hostSideOf t = hostSideOf s := by
  by_cases hblk : WritesBlk i
  · exact .inr (.inl ⟨hblk, standAloneLeavesPipeline i s t hblk.standAlone h⟩)
  · by_cases hsreset : i = .sreset
    · subst hsreset
      injection h with h
      exact .inl ⟨rfl, h.symm⟩
    · rw [exec_eq_command hsreset] at h
      injection h with h
      refine .inr (.inr (h ▸ command_hostSide ?_))
      rcases instr_kind i with ⟨k, h1, h9, rfl⟩ | hi | rfl | rfl | rfl
      · rw [ruleOf_stageCommand h1 h9]
        exact stageRule_hostSide h1 h9 s
      · exact ruleOf_hostSide hi hblk s
      · exact rfl
      · exact (hsreset rfl).elim
      · exact ruleEncode_hostSide s

theorem LeavesPipeline.registers {s t : State} (h : LeavesPipeline s t) :
    t.pending = s.pending ∧ t.rom = s.rom ∧ t.version = s.version ∧ t.level = s.level ∧ t.len = s.len := by
  obtain ⟨hfields, -, -⟩ := h
  exact ⟨(congrArg State.pending hfields :), (congrArg State.rom hfields :), (congrArg State.version hfields :),
    (congrArg State.level hfields :), (congrArg State.len hfields :)⟩

theorem LeavesPipeline.text {s t : State} (h : LeavesPipeline s t) {a : Nat} (ha : a < 8192) :
    readByte t (textBase + a) = readByte s (textBase + a) := by
  obtain ⟨-, -, hmem⟩ := h
  have := textBase_add_le_blkBase
  exact hmem _ (.inl (by omega))

theorem exec_pending_rom {i : Instr} {s t : State} (h : exec i s = .next t) : t.pending = s.pending ∧ t.rom = s.rom := by
  rcases exec_hostSide_cases h with ⟨-, rfl⟩ | ⟨-, hleaves⟩ | hside
  · exact ⟨rfl, rfl⟩
  · obtain ⟨hpending, hrom, -⟩ := hleaves.registers
    exact ⟨hpending, hrom⟩
  · obtain ⟨hpending, hrom, -⟩ := hostSideOf_eq_iff.mp hside
    exact ⟨hpending, hrom⟩

/-! ### What the other host events leave as it is -/

theorem rejectWord_pending_rom (w : Word) (s : State) :
    (rejectWord w s).pending = s.pending ∧ (rejectWord w s).rom = s.rom := by
  unfold rejectWord
  split <;> exact ⟨rfl, rfl⟩

theorem hostRead_pending_rom (a : Addr) (s : State) :
    (hostRead a s).pending = s.pending ∧ (hostRead a s).rom = s.rom := by
  obtain ⟨w, n, h⟩ := hostRead_cases a s
  rw [h]
  exact ⟨rfl, rfl⟩

theorem hostWrite_pending_rom (a : Addr) (w : Word) (s : State) :
    (hostWrite a w s).pending = s.pending ∧ (hostWrite a w s).rom = s.rom := by
  rcases hostWrite_cases a w s with h | h | h | h | ⟨i, -, h⟩ | ⟨i, -, h⟩ <;> rw [h] <;>
    exact ⟨rfl, rfl⟩

/-- A step consumes one host event, if there is one, and changes no table. -/
theorem step_pending_rom {s t : State} (h : step s = .next t) : t.pending = s.pending.tail ∧ t.rom = s.rom := by
  rcases step_cases h with ⟨hp, rfl⟩ | ⟨w, rest, i, hp, -, he⟩ | ⟨w, rest, e, hp, -, rfl⟩ | ⟨a, rest, hp, rfl⟩ |
    ⟨a, w, rest, hp, -, rfl⟩ | ⟨rest, hp, rfl⟩ <;> rw [hp, List.tail]
  · exact ⟨rfl, rfl⟩
  · exact exec_pending_rom he
  · exact rejectWord_pending_rom w _
  · exact hostRead_pending_rom a _
  · exact hostWrite_pending_rom a w _
  · exact ⟨rfl, rfl⟩

/-! ### The obligations -/

/-- Settles O12: SRESET keeps memory, RSENC and RSCOR stay within BLK, and the other commands keep the host's side whole. -/
theorem commandsKeepInputs : Obligations.CommandsKeepInputs := by
  refine ⟨fun i s t h => ?_, fun s t h => (step_pending_rom h).2⟩
  rcases exec_hostSide_cases h with ⟨rfl, rfl⟩ | ⟨hblk, hleaves⟩ | hside
  · have hmem : ∀ a, readByte (complete (softReset s)) a = readByte s a := readByte_congr rfl rfl
    exact ⟨fun hne => (hne rfl).elim, fun a _ => hmem _, fun _ _ => hmem⟩
  · obtain ⟨-, -, hregisters⟩ := hleaves.registers
    refine ⟨fun _ => hregisters, fun a ha => hleaves.text ha, fun hrsenc hrscor => ?_⟩
    rcases hblk with ⟨k, n, hi⟩ | ⟨len, n, hi⟩
    · exact (hrsenc k n hi).elim
    · exact (hrscor len n hi).elim
  · obtain ⟨-, -, hversion, hlevel, hlen, hmem, hepoch⟩ := hostSideOf_eq_iff.mp hside
    have hbytes : ∀ a, readByte t a = readByte s a := readByte_congr hmem hepoch
    exact ⟨fun _ => ⟨hversion, hlevel, hlen⟩, fun a _ => hbytes _, fun _ _ => hbytes⟩

/-- Settles O6: every host event answers a next state and is taken off the queue, and an empty queue leaves the core idle. -/
theorem stepNeverStops : Obligations.StepNeverStops := by
  refine ⟨fun s => ?_, fun _ => step_idle⟩
  obtain ⟨t, h⟩ := step_next s
  obtain ⟨hpending, -⟩ := step_pending_rom h
  exact ⟨t, h, hpending⟩

end Sys2Proof.Machine
end

section
/-! Decoding and encoding agree (30_encoding.md R80 to R86): a word is told by its opcode and the fields of its format, so each
row of the opcode map selects exactly the words that encode its command. -/

namespace Sys2Proof

/-! ### Words by their fields (R80 to R84) -/

theorem append_inj_iff {m n : Nat} {x x' : BitVec m} {y y' : BitVec n} : x ++ y = x' ++ y' ↔ x = x' ∧ y = y' := by
  refine ⟨fun h => ⟨?_, ?_⟩, fun ⟨hx, hy⟩ => hx ▸ hy ▸ rfl⟩
  · simpa only [BitVec.extractLsb'_append_eq_left] using congrArg (BitVec.extractLsb' n m) h
  · simpa only [BitVec.extractLsb'_append_eq_right] using congrArg (BitVec.extractLsb' 0 n) h

/-- A field equals a concatenation exactly when its two parts do. -/
theorem extractLsb'_eq_append_iff {k lo m n : Nat} {w : BitVec k} {x : BitVec m} {y : BitVec n} :
    w.extractLsb' lo (m + n) = x ++ y ↔ w.extractLsb' (lo + n) m = x ∧ w.extractLsb' lo n = y := by
  rw [← BitVec.extractLsb'_append_extractLsb'_eq_extractLsb' rfl, append_inj_iff]

/-- A word is its field of all bits. -/
theorem eq_cast_iff {m : Nat} {w : Word} {x : BitVec m} (h : m = 32) : w = x.cast h ↔ w.extractLsb' 0 m = x := by
  subst h
  rw [BitVec.extractLsb'_eq_self, BitVec.cast_eq]

theorem eq_wordZ_iff {w : Word} {op : BitVec 8} : w = wordZ op ↔ opcodeField w = op ∧ w.extractLsb' 0 24 = 0 :=
  (eq_cast_iff (x := op ++ 0#24) rfl).trans extractLsb'_eq_append_iff

theorem eq_wordAB_iff {w : Word} {op a b : BitVec 8} :
    w = wordAB op a b ↔ opcodeField w = op ∧ aField w = a ∧ bField w = b ∧ w.extractLsb' 0 8 = 0 :=
  (eq_cast_iff (x := op ++ a ++ b ++ 0#8) rfl).trans (by
    simp only [extractLsb'_eq_append_iff, and_assoc]
    rfl)

theorem eq_wordA_iff {w : Word} {op a : BitVec 8} :
    w = wordA op a ↔ opcodeField w = op ∧ aField w = a ∧ w.extractLsb' 0 16 = 0 :=
  (eq_cast_iff (x := op ++ a ++ 0#16) rfl).trans (by
    simp only [extractLsb'_eq_append_iff, and_assoc]
    rfl)

/-- Format I (R84): `op ‖ 0[23:width] ‖ imm`. -/
def wordI (op : BitVec 8) {width : Nat} (h : width ≤ 24) (imm : BitVec width) : Word :=
  (op ++ 0#(24 - width) ++ imm).cast (by omega)

theorem eq_wordI_iff {w : Word} {op : BitVec 8} {width : Nat} {h : width ≤ 24} {imm : BitVec width} :
    w = wordI op h imm ↔ opcodeField w = op ∧ w.extractLsb' width (24 - width) = 0 ∧ w.extractLsb' 0 width = imm := by
  have hop : 0 + width + (24 - width) = 24 := by omega
  rw [wordI, eq_cast_iff, extractLsb'_eq_append_iff, extractLsb'_eq_append_iff, and_assoc, hop, Nat.zero_add]
  rfl

theorem encode_fmtenc (imm : BitVec 5) :
    encode (.fmtenc (imm.extractLsb' 3 2) (imm.extractLsb' 0 3)) = wordI 0x40 (by decide) imm := by
  revert imm
  decide

/-! ### A row of the opcode map: a format and an opcode (R85). `mk` makes the row's command of its operands. -/

theorem checked_eq_ok_iff {zero : Bool} {i j : Instr} : checked zero j = .ok i ↔ zero = true ∧ j = i := by
  cases zero <;> simp [checked]

section formatZ
variable {op : BitVec 8} {j : Instr} (hj : encode j = wordZ op)
include hj

theorem eq_encode_of_formatZ {w : Word} {i : Instr} (hop : opcodeField w = op) (h : formatZ w j = .ok i) : w = encode i := by
  obtain ⟨hzero, rfl⟩ := checked_eq_ok_iff.mp h
  exact hj ▸ eq_wordZ_iff.mpr ⟨hop, beq_iff_eq.mp hzero⟩

theorem decode_formatZ (hrow : ∀ w, opcodeField w = op → decode w = formatZ w j) : decode (encode j) = .ok j := by
  obtain ⟨hop, hzero⟩ := eq_wordZ_iff.mp hj
  rw [hrow _ hop]
  exact checked_eq_ok_iff.mpr ⟨beq_iff_eq.mpr hzero, rfl⟩

end formatZ

section formatAB
variable {op : BitVec 8} {mk : BitVec 8 → BitVec 8 → Instr} (hmk : ∀ a b, encode (mk a b) = wordAB op a b)
include hmk

theorem eq_encode_of_formatAB {w : Word} {i : Instr} (hop : opcodeField w = op) (h : formatAB w mk = .ok i) :
    w = encode i := by
  obtain ⟨hzero, rfl⟩ := checked_eq_ok_iff.mp h
  exact hmk _ _ ▸ eq_wordAB_iff.mpr ⟨hop, rfl, rfl, beq_iff_eq.mp hzero⟩

theorem decode_formatAB (hrow : ∀ w, opcodeField w = op → decode w = formatAB w mk) (a b : BitVec 8) :
    decode (encode (mk a b)) = .ok (mk a b) := by
  obtain ⟨hop, ha, hb, hzero⟩ := eq_wordAB_iff.mp (hmk a b)
  rw [hrow _ hop]
  exact checked_eq_ok_iff.mpr ⟨beq_iff_eq.mpr hzero, by rw [ha, hb]⟩

end formatAB

section formatA
variable {op : BitVec 8} {mk : BitVec 8 → Instr} (hmk : ∀ a, encode (mk a) = wordA op a)
include hmk

theorem eq_encode_of_formatA {w : Word} {i : Instr} (hop : opcodeField w = op) (h : formatA w mk = .ok i) :
    w = encode i := by
  obtain ⟨hzero, rfl⟩ := checked_eq_ok_iff.mp h
  exact hmk _ ▸ eq_wordA_iff.mpr ⟨hop, rfl, beq_iff_eq.mp hzero⟩

theorem decode_formatA (hrow : ∀ w, opcodeField w = op → decode w = formatA w mk) (a : BitVec 8) :
    decode (encode (mk a)) = .ok (mk a) := by
  obtain ⟨hop, ha, hzero⟩ := eq_wordA_iff.mp (hmk a)
  rw [hrow _ hop]
  exact checked_eq_ok_iff.mpr ⟨beq_iff_eq.mpr hzero, by rw [ha]⟩

end formatA

section formatI
variable {op : BitVec 8} {width : Nat} {hw : width ≤ 24} {mk : BitVec width → Instr}
  (hmk : ∀ imm, encode (mk imm) = wordI op hw imm)
include hmk

theorem eq_encode_of_formatI {w : Word} {i : Instr} (hop : opcodeField w = op) (h : formatI w width mk = .ok i) :
    w = encode i := by
  obtain ⟨hzero, rfl⟩ := checked_eq_ok_iff.mp h
  exact hmk _ ▸ eq_wordI_iff.mpr ⟨hop, beq_iff_eq.mp hzero, rfl⟩

theorem decode_formatI (hrow : ∀ w, opcodeField w = op → decode w = formatI w width mk) (imm : BitVec width) :
    decode (encode (mk imm)) = .ok (mk imm) := by
  obtain ⟨hop, hzero, himm⟩ := eq_wordI_iff.mp (hmk imm)
  rw [hrow _ hop]
  exact checked_eq_ok_iff.mpr ⟨beq_iff_eq.mpr hzero, by rw [himm]⟩

end formatI

/-! ### Decoding and encoding agree -/

/-- Only a command's own word decodes to it: the cases are the rows in the decoder's order. -/
theorem eq_encode_of_decode {w : Word} {i : Instr} (h : decode w = .ok i) : w = encode i := by
  unfold decode at h
  split at h
  -- format AB: GFMUL, RSENC, RSSYN, RSCOR
  case h_3 hop | h_5 hop | h_6 hop | h_7 hop => exact eq_encode_of_formatAB (fun _ _ => rfl) hop h
  -- format A: GFGEN
  case h_4 hop => exact eq_encode_of_formatA (fun _ => rfl) hop h
  -- format I: FMTENC, and FMTDEC, VERENC, VERDEC
  case h_18 hop => exact eq_encode_of_formatI encode_fmtenc hop h
  case h_19 hop | h_20 hop | h_21 hop => exact eq_encode_of_formatI (hw := by decide) (fun _ => rfl) hop h
  -- the unassigned opcodes
  case h_22 => exact nomatch h
  -- format Z: the other rows
  all_goals exact eq_encode_of_formatZ rfl (by assumption) h

/-- A command's word decodes to it: its opcode selects the row whose fields are its operands. -/
theorem decode_encode (i : Instr) : decode (encode i) = .ok i := by
  cases i
  case gfmul | rsenc | rssyn | rscor => exact decode_formatAB (fun _ _ => rfl) (fun _ hop => by rw [decode, hop]; rfl) _ _
  case gfgen => exact decode_formatA (fun _ => rfl) (fun _ hop => by rw [decode, hop]; rfl) _
  case fmtenc level mask =>
    revert level mask
    decide
  case fmtdec | verenc | verdec =>
    exact decode_formatI (hw := by decide) (fun _ => rfl) (fun _ hop => by rw [decode, hop]; rfl) _
  all_goals exact decode_formatZ rfl fun _ hop => by rw [decode, hop]; rfl

/-- Settles O1: the opcode selects the row, and in a row the word is its opcode and fields, both ways. -/
theorem decodeIffEncode : Obligations.DecodeIffEncode :=
  fun _ i => ⟨eq_encode_of_decode, fun h => h ▸ decode_encode i⟩

/-- A word is illegal exactly when it encodes no command (R86). -/
theorem decode_eq_error_iff {w : Word} : (∃ e, decode w = .error e) ↔ ∀ i, w ≠ encode i := by
  simp only [ne_eq, ← decodeIffEncode w]
  cases decode w <;> simp

/-! ### Rows by match and mask (R85) -/

/-- The mask of a row: the opcode and the `n` must-be-zero bits from bit `lo` on. -/
def rowMask (lo n : Nat) : Word := 0xFF#8 ++ (BitVec.allOnes n).setWidth 24 <<< lo

/-- The bits under a mask of `n` bits from bit `lo` on are zero exactly when that field is. -/
theorem and_allOnes_shiftLeft_eq_zero_iff {k lo n : Nat} (h : lo + n ≤ k) {x : BitVec k} :
    x &&& (BitVec.allOnes n).setWidth k <<< lo = 0#k ↔ x.extractLsb' lo n = 0#n := by
  have hmask : ∀ i, (x &&& (BitVec.allOnes n).setWidth k <<< lo).getLsbD i =
      (x.getLsbD i && decide (lo ≤ i ∧ i < lo + n)) := by
    intro i
    grind
  simp only [BitVec.zero_iff_eq_false, hmask, BitVec.getLsbD_extractLsb', Bool.and_eq_false_iff, decide_eq_false_iff_not]
  constructor
  · intro hx i
    have := hx (lo + i)
    grind
  · intro hx i
    have := hx (i - lo)
    grind

/-- Match and mask test the opcode and the must-be-zero field. -/
theorem and_rowMask_iff {lo n : Nat} (h : lo + n ≤ 24) {w : Word} {op : BitVec 8} :
    w &&& rowMask lo n = wordZ op ↔ opcodeField w = op ∧ w.extractLsb' lo n = 0 := by
  have hopcode : (rowMask lo n).extractLsb' 24 8 = BitVec.allOnes 8 := BitVec.extractLsb'_append_eq_left
  have hfields : (rowMask lo n).extractLsb' 0 24 = (BitVec.allOnes n).setWidth 24 <<< lo :=
    BitVec.extractLsb'_append_eq_right
  rw [eq_wordZ_iff, opcodeField, BitVec.extractLsb'_and, BitVec.extractLsb'_and, hopcode, hfields, BitVec.and_allOnes,
    opcodeField, ← BitVec.extractLsb'_extractLsb'_of_le h]
  exact and_congr_right' (and_allOnes_shiftLeft_eq_zero_iff h)

/-! The words that a row of each format selects are those that decode to its command with the operands in the word's fields. -/

section rows
variable {w k : Word} {op : BitVec 8}

theorem rowZ_iff {j : Instr} (hj : encode j = wordZ op) (hk : k = wordZ op) :
    w &&& 0xFFFFFFFF = k ↔ decode w = .ok j := by
  have hmask : (0xFFFFFFFF : Word) = rowMask 0 24 := rfl
  rw [decodeIffEncode, hj, eq_wordZ_iff, hk, hmask, and_rowMask_iff (by decide)]

theorem rowAB_iff {mk : BitVec 8 → BitVec 8 → Instr} (hmk : ∀ a b, encode (mk a b) = wordAB op a b) (hk : k = wordZ op) :
    w &&& 0xFF0000FF = k ↔ decode w = .ok (mk (aField w) (bField w)) := by
  have hmask : (0xFF0000FF : Word) = rowMask 0 8 := rfl
  rw [decodeIffEncode, hmk, eq_wordAB_iff, hk, hmask, and_rowMask_iff (by decide)]
  simp only [true_and]

theorem rowA_iff {mk : BitVec 8 → Instr} (hmk : ∀ a, encode (mk a) = wordA op a) (hk : k = wordZ op) :
    w &&& 0xFF00FFFF = k ↔ decode w = .ok (mk (aField w)) := by
  have hmask : (0xFF00FFFF : Word) = rowMask 0 16 := rfl
  rw [decodeIffEncode, hmk, eq_wordA_iff, hk, hmask, and_rowMask_iff (by decide)]
  simp only [true_and]

theorem rowI_iff {width : Nat} {hw : width ≤ 24} {mk : BitVec width → Instr}
    (hmk : ∀ imm, encode (mk imm) = wordI op hw imm) (hk : k = wordZ op) {mask : Word}
    (hmask : mask = rowMask width (24 - width)) : w &&& mask = k ↔ decode w = .ok (mk (w.extractLsb' 0 width)) := by
  rw [decodeIffEncode, hmk, eq_wordI_iff, hk, hmask, and_rowMask_iff (by omega)]
  simp only [and_true]

end rows

/-- The command of the row of `i` with the operands in the row's fields of `w`. -/
def rowCommand (w : Word) : Instr → Instr
  | .gfmul _ _ => .gfmul (aField w) (bField w)
  | .gfgen _ => .gfgen (aField w)
  | .rsenc _ _ => .rsenc (aField w) (bField w)
  | .rssyn _ _ => .rssyn (aField w) (bField w)
  | .rscor _ _ => .rscor (aField w) (bField w)
  | .fmtenc _ _ => .fmtenc (w.extractLsb' 3 2) (w.extractLsb' 0 3)
  | .fmtdec _ => .fmtdec (w.extractLsb' 0 15)
  | .verenc _ => .verenc (w.extractLsb' 0 6)
  | .verdec _ => .verdec (w.extractLsb' 0 18)
  | i => i

/-- The operands of FMTENC, cut from its immediate, are fields of the word. -/
theorem fmtenc_fields (w : Word) :
    Instr.fmtenc ((w.extractLsb' 0 5).extractLsb' 3 2) ((w.extractLsb' 0 5).extractLsb' 0 3) =
    .fmtenc (w.extractLsb' 3 2) (w.extractLsb' 0 3) := by
  rw [BitVec.extractLsb'_extractLsb'_of_le (by decide), BitVec.extractLsb'_extractLsb'_of_le (by decide)]

/-- The word selects the row of `i`: `(w & mask) = match` (R85). -/
def SelectsRow (w : Word) (i : Instr) : Prop := w &&& (Laws.OpcodeRow.row i).2 = (Laws.OpcodeRow.row i).1

/-- A word selects a row exactly when it decodes to the row's command. -/
theorem selectsRow_iff (w : Word) (i : Instr) : SelectsRow w i ↔ decode w = .ok (rowCommand w i) := by
  cases i
  case gfmul | rsenc | rssyn | rscor => exact rowAB_iff (fun _ _ => rfl) (by rfl)
  case gfgen => exact rowA_iff (fun _ => rfl) (by rfl)
  case fmtenc =>
    rw [rowCommand, ← fmtenc_fields]
    exact rowI_iff encode_fmtenc (by rfl) (by rfl)
  case fmtdec | verenc | verdec => exact rowI_iff (hw := by decide) (fun _ => rfl) (by rfl) (by rfl)
  all_goals exact rowZ_iff rfl (by rfl)

/-- The decoder takes the operands from the row's fields. -/
theorem rowCommand_of_decode {w : Word} {i : Instr} (h : decode w = .ok i) : rowCommand w i = i := by
  unfold decode at h
  split at h
  case h_18 =>
    obtain ⟨-, rfl⟩ := checked_eq_ok_iff.mp h
    exact (fmtenc_fields w).symm
  case h_22 => exact nomatch h
  all_goals
    obtain ⟨-, rfl⟩ := checked_eq_ok_iff.mp h
    exact rfl

/-- A word that selects no row decodes to no command. -/
theorem selects_no_row_iff {w : Word} : (∀ i, ¬ SelectsRow w i) ↔ ∃ e, decode w = .error e := by
  simp only [selectsRow_iff]
  cases hd : decode w with
  | error e => simp
  | ok i => simpa using ⟨i, (rowCommand_of_decode hd).symm⟩

/-- Settles O2: each row is `selectsRow_iff` of its command, whatever the operands. -/
theorem opcodeMapRows : Obligations.OpcodeMapRows := by
  intro w
  have hrow := selectsRow_iff w
  refine ⟨hrow .nop, hrow .sreset, hrow (.gfmul 0 0), hrow (.gfgen 0), hrow (.rsenc 0 0), hrow (.rssyn 0 0),
    hrow (.rscor 0 0), hrow .analyze, hrow .pack, hrow .rssplit, hrow .rsilv, hrow .matinit, hrow .matplace,
    hrow .maskeval, hrow .masksel, hrow .infostamp, hrow .encode, hrow (.fmtenc 0 0), hrow (.fmtdec 0), hrow (.verenc 0),
    hrow (.verdec 0), Iff.trans ?_ selects_no_row_iff⟩
  simp only [List.mem_cons, List.not_mem_nil, or_false, not_or]
  constructor
  · rintro ⟨⟨hnop, hsreset, hanalyze, hpack, hrssplit, hrsilv, hmatinit, hmatplace, hmaskeval, hmasksel, hinfostamp,
      hencode⟩, ⟨hgfmul, hrsenc, hrssyn, hrscor⟩, hgfgen, hfmtenc, hfmtdec, hverenc, hverdec⟩ i
    -- one hypothesis a row
    cases i <;> assumption
  · intro h
    exact ⟨⟨h .nop, h .sreset, h .analyze, h .pack, h .rssplit, h .rsilv, h .matinit, h .matplace, h .maskeval,
      h .masksel, h .infostamp, h .encode⟩, ⟨h (.gfmul 0 0), h (.rsenc 0 0), h (.rssyn 0 0), h (.rscor 0 0)⟩,
      h (.gfgen 0), h (.fmtenc 0 0), h (.fmtdec 0), h (.verenc 0), h (.verdec 0)⟩

/-- Settles O3: the words are the encodings of the commands, but for the last two, which the decoder rejects. -/
theorem specWordsDecode : Obligations.SpecWordsDecode :=
  ⟨decode_encode .nop, decode_encode .sreset, decode_encode (.gfmul 3 7), decode_encode (.gfgen 2),
    decode_encode (.rsenc 16 10), decode_encode (.rssyn 26 10), decode_encode (.rscor 26 10), decode_encode .analyze,
    decode_encode .encode, decode_encode (.fmtenc 0b10 6), decode_encode (.fmtdec 0x77C4), decode_encode (.verenc 7),
    decode_encode (.verdec 0x07C94), rfl, rfl⟩

end Sys2Proof
end

section
/-! The checks before a rule runs and their reports (30_encoding.md R80, R86 to R88): what fails a check changes the report
only, and no rule raises an error of the checks. -/

namespace Sys2Proof.Machine

/-! ### Words that are no command (R86) -/

/-- An error that is not fatal leaves HALT as it is. -/
theorem raise_eq_withError {e : Error} (he : isFatal e = false) (w : Word) (s : State) :
    raise e w s = s.withError (errorCode e) w := by
  rw [raise, he, Bool.or_false, State.withError]

theorem step_eq_commandWord {s : State} {w : Word} {rest : List HostEvent} (h : s.pending = .write cmdAddr w :: rest) :
    step s = commandWord w { s with pending := rest } := by
  simp only [step, h, hostEvent, if_true]

theorem commandWord_illegal {w : Word} (hw : ∀ i, w ≠ encode i) (s : State) :
    commandWord w s = .next (rejectWord w s) := by
  obtain ⟨e, he⟩ := decode_eq_error_iff.mpr hw
  rw [commandWord, he]

/-- Settles O5: a word that encodes no command is not decoded and is rejected. -/
theorem illegalWordRaises : Obligations.IllegalWordRaises := by
  intro s w rest hpending hw hhalt
  rw [step_eq_commandWord hpending, commandWord_illegal hw, rejectWord, hhalt, raise_eq_withError rfl]
  exact rfl

/-! ### The errors of the rules (R340) -/

/-- If the rule raises an error, it is one of these. -/
def RuleResult.RaisesOnly (es : List Error) : RuleResult → Prop
  | .done _ => True
  | .raised e _ => e ∈ es

theorem RuleResult.RaisesOnly.andThen {es : List Error} {r : RuleResult} {next : State → RuleResult}
    (hr : r.RaisesOnly es) (hnext : ∀ t, (next t).RaisesOnly es) : (r.andThen next).RaisesOnly es := by
  cases r with
  | done t => exact hnext t
  | raised e t => exact hr

theorem RuleResult.RaisesOnly.mono {es es' : List Error} {r : RuleResult} (hr : r.RaisesOnly es) (h : es ⊆ es') :
    r.RaisesOnly es' := by
  cases r with
  | done t => trivial
  | raised e t => exact h hr

/-- The errors the command's rule may raise. -/
def ruleErrors : Instr → List Error
  | .rscor _ _ => [.rsUncorrectable]
  | .analyze => [.dataTooLarge]
  | .rssplit => [.structuralInconsistency]
  | .matplace => [.structuralInconsistency]
  | .encode => [.dataTooLarge, .structuralInconsistency]
  | .fmtdec _ => [.bchUncorrectable]
  | .verdec _ => [.bchUncorrectable]
  | _ => []

theorem ruleAnalyze_raisesOnly (s : State) : (ruleAnalyze s).RaisesOnly [.dataTooLarge] := by
  unfold ruleAnalyze
  split
  · trivial
  · exact List.mem_singleton_self _

theorem ruleRssplit_raisesOnly (s : State) : (ruleRssplit s).RaisesOnly [.structuralInconsistency] := by
  unfold ruleRssplit
  dsimp only
  split
  · exact List.mem_singleton_self _
  · trivial

theorem ruleMatplace_raisesOnly (s : State) : (ruleMatplace s).RaisesOnly [.structuralInconsistency] := by
  unfold ruleMatplace
  dsimp only
  split
  · exact List.mem_singleton_self _
  · trivial

/-- The rules of the stages raise DataTooLarge (R106) and StructuralInconsistency (R156, R208) only. -/
theorem stageRule_raisesOnly (k : Nat) (s : State) :
    (stageRule k s).RaisesOnly [.dataTooLarge, .structuralInconsistency] := by
  unfold stageRule
  split
  case h_1 => exact (ruleAnalyze_raisesOnly s).mono (by decide)
  case h_3 => exact (ruleRssplit_raisesOnly s).mono (by decide)
  case h_6 => exact (ruleMatplace_raisesOnly s).mono (by decide)
  all_goals trivial

theorem ruleEncode_raisesOnly (s : State) : (ruleEncode s).RaisesOnly [.dataTooLarge, .structuralInconsistency] :=
  (stageRule_raisesOnly 1 (clearStages ANALYZED s)).andThen (stageRule_raisesOnly 2)
    |>.andThen (stageRule_raisesOnly 3) |>.andThen (stageRule_raisesOnly 4) |>.andThen (stageRule_raisesOnly 5)
    |>.andThen (stageRule_raisesOnly 6) |>.andThen (stageRule_raisesOnly 7) |>.andThen (stageRule_raisesOnly 8)
    |>.andThen (stageRule_raisesOnly 9)

theorem ruleRscor_raisesOnly (len n : BitVec 8) (s : State) : (ruleRscor len n s).RaisesOnly [.rsUncorrectable] := by
  unfold ruleRscor
  dsimp only
  split
  · trivial
  · exact List.mem_singleton_self _

theorem ruleFmtdec_raisesOnly (raw : BitVec 15) (s : State) : (ruleFmtdec raw s).RaisesOnly [.bchUncorrectable] := by
  unfold ruleFmtdec
  split
  · trivial
  · exact List.mem_singleton_self _

theorem ruleVerdec_raisesOnly (raw : BitVec 18) (s : State) : (ruleVerdec raw s).RaisesOnly [.bchUncorrectable] := by
  unfold ruleVerdec
  split
  · trivial
  · exact List.mem_singleton_self _

/-- The rule of every command raises the command's own errors only. -/
theorem ruleOf_raisesOnly (i : Instr) (s : State) : (ruleOf i s).RaisesOnly (ruleErrors i) := by
  cases i with
  | rscor len n => exact ruleRscor_raisesOnly len n s
  | analyze => exact ruleAnalyze_raisesOnly s
  | rssplit => exact ruleRssplit_raisesOnly s
  | matplace => exact ruleMatplace_raisesOnly s
  | encode => exact ruleEncode_raisesOnly s
  | fmtdec raw => exact ruleFmtdec_raisesOnly raw s
  | verdec raw => exact ruleVerdec_raisesOnly raw s
  | _ => trivial

/-- The codes of the rules' errors are below those of the checks' errors (R340). -/
theorem ruleErrors_errorCode_le (i : Instr) : ∀ e ∈ ruleErrors i, errorCode e ≤ 4 := by
  cases i
  case encode => decide
  case analyze | rssplit | matplace | rscor | fmtdec | verdec => exact List.forall_mem_singleton.mpr (by decide)
  all_goals exact List.forall_mem_nil _

theorem conclude_errcode_le {es : List Error} (hes : ∀ e ∈ es, errorCode e ≤ 4) (w : Word) {r : RuleResult}
    (hr : r.RaisesOnly es) : (conclude w r).errcode ≤ 4 := by
  cases r with
  | done t => exact (by decide : (0 : BitVec 4) ≤ 4)
  | raised e t => exact hes e hr

/-! ### The checks of a command that is not halted (R80, R87, R88) -/

section
variable {i : Instr} {s : State} (hhalt : s.halt = false)
include hhalt

theorem exec_outOfRange (ho : operandsOk i s = false) : exec i s = .next (s.withError 7 (encode i)) := by
  have hne : i ≠ .sreset := by
    rintro rfl
    exact Bool.noConfusion ho
  rw [exec_eq_command hne, ho, command_badOperand hhalt, raise_eq_withError rfl, errorCode]

theorem exec_notReady (ho : operandsOk i s = true) (hr : readyFor i s = false) :
    exec i s = .next (s.withError 5 (encode i)) := by
  have hne : i ≠ .sreset := by
    rintro rfl
    exact Bool.noConfusion hr
  rw [exec_eq_command hne, ho, hr, command_notReady hhalt, raise_eq_withError rfl, errorCode]

theorem exec_runs (ho : operandsOk i s = true) (hr : readyFor i s = true) :
    exec i s = .next (conclude (encode i) (ruleOf i s)) := by
  by_cases hsreset : i = .sreset
  · subst hsreset
    exact exec_sreset s
  · rw [exec_eq_command hsreset, ho, hr, command_runs hhalt]

/-- A command that runs its rule reports no error of the checks. -/
theorem errcode_le_of_ready {t : State} (ho : operandsOk i s = true) (hr : readyFor i s = true)
    (h : exec i s = .next t) : t.errcode ≤ 4 := by
  rw [exec_runs hhalt ho hr] at h
  injection h with h
  exact h ▸ conclude_errcode_le (ruleErrors_errorCode_le i) _ (ruleOf_raisesOnly i s)

/-- A command with its operands in range reports no BadOperand. -/
theorem errcode_le_of_inRange {t : State} (ho : operandsOk i s = true) (h : exec i s = .next t) : t.errcode ≤ 5 := by
  cases hr : readyFor i s with
  | true => exact BitVec.le_trans (errcode_le_of_ready hhalt ho hr h) (by decide)
  | false =>
    rw [exec_notReady hhalt ho hr] at h
    injection h with h
    exact h ▸ BitVec.le_refl _

end

/-- Settles O8: an operand out of range ends the command at its check, and nothing after that check has code 7. -/
theorem badOperandExactlyOutOfRange : Obligations.BadOperandExactlyOutOfRange := by
  intro i s hhalt
  rw [← operandsOk_iff, Bool.not_eq_true]
  refine ⟨⟨fun ⟨t, h, hcode⟩ => ?_, fun ho => ⟨_, exec_outOfRange hhalt ho, rfl⟩⟩, exec_outOfRange hhalt⟩
  by_contra ho
  have hle := errcode_le_of_inRange hhalt (eq_true_of_ne_false ho) h
  rw [hcode] at hle
  exact absurd hle (by decide)

/-- Settles O9: a required bit that is 0 ends the command at its check, and no rule has code 5. -/
theorem sequenceErrorExactlyNotReady : Obligations.SequenceErrorExactlyNotReady := by
  intro i s hhalt hrange
  have ho := (operandsOk_iff i s).mpr hrange
  rw [← readyFor_iff, Bool.not_eq_true]
  refine ⟨⟨fun ⟨t, h, hcode⟩ => ?_, fun hr => ⟨_, exec_notReady hhalt ho hr, rfl⟩⟩, exec_notReady hhalt ho⟩
  by_contra hr
  have hle := errcode_le_of_ready hhalt ho (eq_true_of_ne_false hr) h
  rw [hcode] at hle
  exact absurd hle (by decide)

end Sys2Proof.Machine
end

section
/-! Mode analysis and bit packing (40_mode_and_bit_packer.md): the class of a byte, the dominant mode and the least version
that holds a text, and what ANALYZE and PACK do. -/

namespace Sys2Proof.Machine

/-! ### Character classes, mode and version (R101, R102, R104, R105, R110) -/

/-- The class test by test on the byte as a number: the digits first. -/
theorem charClass_eq (b : Byte) :
    charClass b = if 0x30 ≤ b.toNat ∧ b.toNat ≤ 0x39 then .numeric
      else if (0x41 ≤ b.toNat ∧ b.toNat ≤ 0x5A) ∨ b ∈ alphanumericSymbols then .alphanumeric else .byte := rfl

theorem mem_alphanumericSymbols_iff (b : Byte) :
    b ∈ alphanumericSymbols ↔ b.toNat ∈ [0x20, 0x24, 0x25, 0x2A, 0x2B, 0x2D, 0x2E, 0x2F, 0x3A] :=
  (List.mem_map_of_injective fun _ _ => BitVec.eq_of_toNat_eq).symm

theorem charClass_eq_numeric_iff (b : Byte) : charClass b = .numeric ↔ 0x30 ≤ b.toNat ∧ b.toNat ≤ 0x39 := by
  rw [charClass_eq]
  split_ifs with hdigit
  · simp [hdigit]
  · simp [hdigit]
  · simp [hdigit]

/-- Neither a letter nor a symbol is a digit, so the numeric test before it hides none of them. -/
theorem charClass_eq_alphanumeric_iff (b : Byte) :
    charClass b = .alphanumeric ↔ (0x41 ≤ b.toNat ∧ b.toNat ≤ 0x5A) ∨ b ∈ alphanumericSymbols := by
  rw [charClass_eq]
  split_ifs with hdigit hrest
  · have hother : ¬ ((0x41 ≤ b.toNat ∧ b.toNat ≤ 0x5A) ∨ b ∈ alphanumericSymbols) := by
      simp only [mem_alphanumericSymbols_iff, List.mem_cons, List.not_mem_nil, or_false]
      omega
    simp [hother]
  · simp [hrest]
  · simp [hrest]

theorem charClass_ne_byte_iff (b : Byte) : charClass b ≠ .byte ↔ charClass b = .numeric ∨ charClass b = .alphanumeric := by
  cases charClass b <;> decide

/-- The kanji mode is stored as byte, so it does not matter here whether the text is one. -/
theorem downgrade_dominantMode {text : List Byte} (h : text ≠ []) :
    downgrade (dominantMode text) =
      if ∀ b ∈ text, charClass b = .numeric then .numeric
      else if ∀ b ∈ text, charClass b ≠ .byte then .alphanumeric else .byte := by
  simp only [dominantMode, List.isEmpty_iff, h, if_false, List.all_eq_true, beq_iff_eq, bne_iff_ne]
  split
  · rfl
  · split
    · rfl
    · split <;> rfl

theorem downgrade_dominantMode_nil : downgrade (dominantMode []) = emptyMode Config.emptyTextMode := by
  rw [dominantMode, List.isEmpty_nil, if_pos rfl]
  cases Config.emptyTextMode <;> rfl

theorem minimumVersion_eq_some_iff {rom : Rom} {level : BitVec 2} {m : Mode} {len v : Nat} :
    minimumVersion rom level m len = some v ↔
      1 ≤ v ∧ v ≤ 40 ∧ needBits m len v ≤ capOf rom v level ∧
        ∀ u, 1 ≤ u → u < v → capOf rom u level < needBits m len u := by
  simp only [minimumVersion, List.find?_range'_eq_some, List.mem_range'_1, decide_eq_true_eq, Bool.not_eq_true',
    decide_eq_false_iff_not, not_le]
  constructor
  · rintro ⟨hfit, ⟨h1, h40⟩, hleast⟩
    exact ⟨h1, by omega, hfit, hleast⟩
  · rintro ⟨h1, h40, hfit, hleast⟩
    exact ⟨hfit, ⟨h1, by omega⟩, hleast⟩

theorem minimumVersion_eq_none_iff {rom : Rom} {level : BitVec 2} {m : Mode} {len : Nat} :
    minimumVersion rom level m len = none ↔ ∀ v, 1 ≤ v → v ≤ 40 → capOf rom v level < needBits m len v := by
  simp only [minimumVersion, List.find?_eq_none, List.mem_range'_1, decide_eq_true_eq, not_le]
  exact ⟨fun h v h1 h40 => h v ⟨h1, by omega⟩, fun h v ⟨h1, h40⟩ => h v h1 (by omega)⟩

/-- Settles O52: the classes by their defining tests, the mode by the tests on all bytes, the version by the search's first
hit. -/
theorem modeAndMinimumVersion : Obligations.ModeAndMinimumVersion := by
  refine ⟨fun b => ⟨charClass_eq_numeric_iff b, ?_⟩, fun text h => downgrade_dominantMode h, downgrade_dominantMode_nil,
    fun rom level m len => ⟨fun v => minimumVersion_eq_some_iff, minimumVersion_eq_none_iff⟩⟩
  rw [charClass_eq_alphanumeric_iff, mem_alphanumericSymbols_iff]

/-! ### ANALYZE (R106) -/

theorem statusWord_getLsbD_notice (s : State) : (statusWord s).getLsbD 4 = s.notice := by
  simp only [statusWord, BitVec.getLsbD_append]
  simp

/-- What a host reads of the outcome of the analysis while the group is held (R28, R37). -/
theorem elementAt_analysis {t : State} (h : t.held.getLsbD ANALYZED = true) :
    elementAt t 0x08 = .known (t.mode.setWidth 32) ∧ elementAt t 0x09 = .known (t.minver.setWidth 32) ∧
      elementAt t 0x0A = .known (if t.anvalid then 1 else 0) ∧
      ∃ w, elementAt t 0x01 = .known w ∧ w.getLsbD 4 = t.notice := by
  refine ⟨if_pos h, if_pos h, ?_, _, rfl, ?_⟩
  · have hbit : (BitVec.ofBool t.anvalid).setWidth 32 = if t.anvalid then 1 else 0 := by cases t.anvalid <;> rfl
    exact hbit ▸ if_pos h
  · exact (BitVec.getLsbD_setWidth ..).trans (statusWord_getLsbD_notice t)

theorem markHeld_getLsbD {k : Nat} (hk : k < 12) (s : State) : (markHeld k s).held.getLsbD k = true := by
  rw [markHeld_held, BitVec.getLsbD_or, validBit_getLsbD hk, decide_eq_true rfl, Bool.or_true]

theorem recordAnalysis_held (s : State) : (recordAnalysis s).held.getLsbD ANALYZED = true :=
  markHeld_getLsbD (by decide) _

theorem analyzedState_held (s : State) : (analyzedState s).held.getLsbD ANALYZED = true := by
  simp [analyzedState, recordAnalysis_held]

theorem textFits_iff (s : State) :
    textFits s = true ↔ (analyzedMinimum s).isSome = true ∧
      needBits (analyzedMode s) s.len.toNat s.version.toNat ≤ currentCap s := by
  rw [textFits, Bool.and_eq_true, decide_eq_true_eq]

theorem textFits_eq_false_iff (s : State) :
    textFits s = false ↔ analyzedMinimum s = none ∨
      currentCap s < needBits (analyzedMode s) s.len.toNat s.version.toNat := by
  rw [← Bool.not_eq_true, textFits_iff, not_and_or, Option.not_isSome_iff_eq_none, not_le]

section
variable {s : State} (hhalt : s.halt = false) (hready : s.valid.getLsbD GFRDY = true)
  (hrange : 1 ≤ s.version.toNat ∧ s.version.toNat ≤ 40)
include hhalt hready hrange

theorem exec_analyze_of_fits (h : textFits s = true) : exec .analyze s = .next (complete (analyzedState s)) := by
  rw [exec_runs (i := .analyze) hhalt (decide_eq_true hrange) hready, ruleOf, ruleAnalyze_done h, conclude]

theorem exec_analyze_of_not_fits (h : textFits s = false) :
    exec .analyze s = .next ((recordAnalysis s).withError 1 0x30000000) := by
  rw [exec_runs (i := .analyze) hhalt (decide_eq_true hrange) hready, ruleOf, ruleAnalyze, h, if_neg Bool.false_ne_true,
    conclude, raise_eq_withError rfl]
  exact rfl

end

/-- Settles O35: the rule runs in the version's range, and both of its ends keep the analysis held. -/
theorem analyzeResult : Obligations.AnalyzeResult := by
  intro s hhalt hready
  refine ⟨fun h1 h40 => ?_, fun hout => ?_⟩
  · refine ⟨fun hfound hneed => ?_, fun hfail => ?_⟩
    · have hfits := (textFits_iff s).mpr ⟨hfound, hneed⟩
      refine ⟨_, exec_analyze_of_fits hhalt hready ⟨h1, h40⟩ hfits, ?_, ?_⟩
      · exact congrArg (fun b => { complete (analyzedState s) with anvalid := b }) hfound
      · exact elementAt_analysis (analyzedState_held s)
    · have hfits := (textFits_eq_false_iff s).mpr hfail
      refine ⟨_, exec_analyze_of_not_fits hhalt hready ⟨h1, h40⟩ hfits, rfl, ?_⟩
      exact elementAt_analysis (recordAnalysis_held s)
  · exact exec_outOfRange hhalt (decide_eq_false (by omega))

/-! ### PACK (R115) -/

theorem usedStream_textBytes (s : State) :
    usedStream s.mode s.version.toNat (textBytes s) =
      bitsMsb 4 s.mode.toNat ++ bitsMsb (ccbits (modeOfIndicator s.mode) s.version.toNat) s.len.toNat ++
        dataStream (modeOfIndicator s.mode) (textBytes s) := by
  rw [usedStream, textBytes, readBytes_length]

/-- Settles O36: PACK's rule always completes, in the packed state. -/
theorem packCompletes : Obligations.PackCompletes := by
  intro s hhalt
  refine ⟨fun hready => ?_, fun hnot => exec_notReady hhalt rfl hnot⟩
  refine ⟨complete (packedState s), ?_, ?_⟩
  · rw [exec_runs (i := .pack) hhalt rfl hready, ruleOf, rulePack_done, conclude]
  · rw [← usedStream_textBytes]
    exact rfl

end Sys2Proof.Machine
end

section
/-! The packed stream (40_mode_and_bit_packer.md R112 to R120): bits and numbers, what stands where in the data bits of each
mode, and the padding up to the capacity. -/

namespace Sys2Proof.Machine

/-! ### Bits and numbers (R12, R65) -/

@[simp] theorem bitsMsb_length (n v : Nat) : (bitsMsb n v).length = n := by simp [bitsMsb]

/-- A last bit is the number's lowest. -/
theorem natOfBits_concat (bs : List Bool) (b : Bool) : natOfBits (bs ++ [b]) = Nat.bit b (natOfBits bs) := by
  simp [natOfBits, Nat.bit_val]

theorem bitsMsb_succ (n v : Nat) : bitsMsb (n + 1) v = bitsMsb n (v >>> 1) ++ [v.testBit 0] := by
  have hinit : ∀ i ∈ List.range n, v.testBit (n + 1 - 1 - i) = (v >>> 1).testBit (n - 1 - i) := fun i hi => by
    have hi := List.mem_range.mp hi
    rw [Nat.testBit_shiftRight]
    congr 1
    omega
  rw [bitsMsb, List.range_succ, List.map_append, List.map_congr_left hinit]
  simp [bitsMsb]

theorem natOfBits_bitsMsb {n v : Nat} (h : v < 2 ^ n) : natOfBits (bitsMsb n v) = v := by
  induction n generalizing v with
  | zero =>
    obtain rfl : v = 0 := by simpa using h
    rfl
  | succ n ih =>
    have hinit : v >>> 1 < 2 ^ n := by omega
    rw [bitsMsb_succ, natOfBits_concat, ih hinit, Nat.bit_testBit_zero_shiftRight_one]

/-- Bit `k` of the number is the `k`-th bit from the end. -/
theorem testBit_natOfBits (bs : List Bool) (k : Nat) : (natOfBits bs).testBit k = bs.reverse.getD k false := by
  induction bs using List.reverseRecOn generalizing k with
  | nil => simp [natOfBits]
  | append_singleton bs b ih =>
    rw [natOfBits_concat, List.reverse_append]
    cases k with
    | zero => exact Nat.testBit_bit_zero b _
    | succ k => rw [Nat.testBit_bit_succ, ih]; rfl

/-- A field at the head of a stream reads back as the number it was made of. -/
theorem natOfBits_take_field {n v : Nat} (h : v < 2 ^ n) (rest : List Bool) :
    natOfBits ((bitsMsb n v ++ rest).take n) = v := by
  rw [List.take_left' (bitsMsb_length n v), natOfBits_bitsMsb h]

/-! ### Where the data bits of a character stand (R113, R114, R116) -/

/-- The text from an index on starts with the byte that the statements name by that index. -/
theorem drop_eq_getD_cons {text : List Byte} {i : Nat} (h : i < text.length) :
    text.drop i = text.getD i 0 :: text.drop (i + 1) := by
  rw [List.getD_eq_getElem _ _ h, List.drop_eq_getElem_cons h]

theorem getD_mem {text : List Byte} {i : Nat} (h : i < text.length) : text.getD i 0 ∈ text := by
  rw [List.getD_eq_getElem _ _ h]
  exact List.getElem_mem h

theorem drop_packNumeric {text : List Byte} {i : Nat} (h : 3 * i ≤ text.length) :
    (packNumeric text).drop (10 * i) = packNumeric (text.drop (3 * i)) := by
  induction i generalizing text with
  | zero => rfl
  | succ i ih =>
    match text, h with
    | a :: b :: c :: rest, h =>
      have hrest : 3 * i ≤ rest.length := by simp only [List.length_cons] at h; omega
      rw [packNumeric, Nat.mul_succ, Nat.add_comm, ← List.drop_drop, List.drop_left' (bitsMsb_length _ _), ih hrest]
      rfl

theorem drop_packAlphanumeric {text : List Byte} {i : Nat} (h : 2 * i ≤ text.length) :
    (packAlphanumeric text).drop (11 * i) = packAlphanumeric (text.drop (2 * i)) := by
  induction i generalizing text with
  | zero => rfl
  | succ i ih =>
    match text, h with
    | a :: b :: rest, h =>
      have hrest : 2 * i ≤ rest.length := by simp only [List.length_cons] at h; omega
      rw [packAlphanumeric, Nat.mul_succ, Nat.add_comm, ← List.drop_drop, List.drop_left' (bitsMsb_length _ _), ih hrest]
      rfl

theorem packByte_cons (b : Byte) (text : List Byte) : packByte (b :: text) = bitsMsb 8 b.toNat ++ packByte text := rfl

theorem drop_packByte (text : List Byte) (i : Nat) : (packByte text).drop (8 * i) = packByte (text.drop i) := by
  induction i generalizing text with
  | zero => rfl
  | succ i ih =>
    cases text with
    | nil => simp [packByte]
    | cons b rest =>
      rw [packByte_cons, Nat.mul_succ, Nat.add_comm, ← List.drop_drop, List.drop_left' (bitsMsb_length _ _), ih]
      rfl

/-! ### Digits: three, two, one (R113) -/

section
variable {text : List Byte} (hdigits : ∀ b ∈ text, 0x30 ≤ b.toNat ∧ b.toNat ≤ 0x39)
include hdigits

theorem digitValue_getD_lt {i : Nat} (h : i < text.length) : digitValue (text.getD i 0) < 10 := by
  obtain ⟨hlow, hhigh⟩ := hdigits _ (getD_mem h)
  unfold digitValue
  omega

theorem packNumeric_three {i : Nat} (h : 3 * i + 2 < text.length) :
    natOfBits (((packNumeric text).drop (10 * i)).take 10) =
      100 * digitValue (text.getD (3 * i) 0) + 10 * digitValue (text.getD (3 * i + 1) 0)
        + digitValue (text.getD (3 * i + 2) 0) := by
  have ha := digitValue_getD_lt hdigits (i := 3 * i) (by omega)
  have hb := digitValue_getD_lt hdigits (i := 3 * i + 1) (by omega)
  have hc := digitValue_getD_lt hdigits h
  rw [drop_packNumeric (by omega), drop_eq_getD_cons (by omega), drop_eq_getD_cons (by omega), drop_eq_getD_cons h,
    packNumeric, natOfBits_take_field (by omega)]

theorem packNumeric_two {i : Nat} (h : text.length = 3 * i + 2) :
    natOfBits (((packNumeric text).drop (10 * i)).take 7) =
      10 * digitValue (text.getD (3 * i) 0) + digitValue (text.getD (3 * i + 1) 0) := by
  have ha := digitValue_getD_lt hdigits (i := 3 * i) (by omega)
  have hb := digitValue_getD_lt hdigits (i := 3 * i + 1) (by omega)
  rw [drop_packNumeric (by omega), drop_eq_getD_cons (by omega), drop_eq_getD_cons (by omega),
    List.drop_eq_nil_of_le (by omega), packNumeric, ← List.append_nil (bitsMsb _ _), natOfBits_take_field (by omega)]

theorem packNumeric_one {i : Nat} (h : text.length = 3 * i + 1) :
    natOfBits (((packNumeric text).drop (10 * i)).take 4) = digitValue (text.getD (3 * i) 0) := by
  have ha := digitValue_getD_lt hdigits (i := 3 * i) (by omega)
  rw [drop_packNumeric (by omega), drop_eq_getD_cons (by omega), List.drop_eq_nil_of_le (by omega), packNumeric,
    ← List.append_nil (bitsMsb _ _), natOfBits_take_field (by omega)]

end

/-! ### Alphanumeric characters: two, one (R112, R114) -/

theorem alphanumericValue_lt {b : Byte} (h : charClass b ≠ .byte) : alphanumericValue b < 45 := by
  rw [charClass_ne_byte_iff, charClass_eq_numeric_iff, charClass_eq_alphanumeric_iff] at h
  unfold alphanumericValue
  split_ifs with hdigit hletter
  · omega
  · omega
  · have hsymbol : b ∈ alphanumericSymbols := by tauto
    have hidx : alphanumericSymbols.idxOf b < 9 := List.idxOf_lt_length_iff.mpr hsymbol
    omega

section
variable {text : List Byte} (hclass : ∀ b ∈ text, charClass b ≠ .byte)
include hclass

theorem packAlphanumeric_two {i : Nat} (h : 2 * i + 1 < text.length) :
    natOfBits (((packAlphanumeric text).drop (11 * i)).take 11) =
      45 * alphanumericValue (text.getD (2 * i) 0) + alphanumericValue (text.getD (2 * i + 1) 0) := by
  have ha := alphanumericValue_lt (hclass _ (getD_mem (i := 2 * i) (by omega)))
  have hb := alphanumericValue_lt (hclass _ (getD_mem h))
  rw [drop_packAlphanumeric (by omega), drop_eq_getD_cons (by omega), drop_eq_getD_cons h, packAlphanumeric,
    natOfBits_take_field (by omega)]

theorem packAlphanumeric_one {i : Nat} (h : text.length = 2 * i + 1) :
    natOfBits (((packAlphanumeric text).drop (11 * i)).take 6) = alphanumericValue (text.getD (2 * i) 0) := by
  have ha := alphanumericValue_lt (hclass _ (getD_mem (i := 2 * i) (by omega)))
  rw [drop_packAlphanumeric (by omega), drop_eq_getD_cons (by omega), List.drop_eq_nil_of_le (by omega), packAlphanumeric,
    ← List.append_nil (bitsMsb _ _), natOfBits_take_field (by omega)]

end

/-! ### Bytes (R116) -/

theorem packByte_byte {text : List Byte} {i : Nat} (h : i < text.length) :
    natOfBits (((packByte text).drop (8 * i)).take 8) = (text.getD i 0).toNat := by
  rw [drop_packByte, drop_eq_getD_cons h, packByte_cons, natOfBits_take_field (BitVec.isLt _)]

/-! ### The number of data bits (R109) -/

theorem packNumeric_length (text : List Byte) :
    (packNumeric text).length =
      10 * (text.length / 3) + if text.length % 3 = 0 then 0 else if text.length % 3 = 1 then 4 else 7 := by
  induction text using packNumeric.induct with
  | case1 a b c rest ih =>
    simp only [packNumeric, List.length_append, bitsMsb_length, ih, List.length_cons, Nat.add_mod_right,
      show rest.length + 1 + 1 + 1 = rest.length + 3 from rfl]
    omega
  | case2 | case3 | case4 => simp [packNumeric]

theorem packAlphanumeric_length (text : List Byte) :
    (packAlphanumeric text).length = 11 * (text.length / 2) + 6 * (text.length % 2) := by
  induction text using packAlphanumeric.induct with
  | case1 a b rest ih =>
    simp only [packAlphanumeric, List.length_append, bitsMsb_length, ih, List.length_cons]
    omega
  | case2 | case3 => simp [packAlphanumeric]

theorem packByte_length (text : List Byte) : (packByte text).length = 8 * text.length := by
  simp [packByte, List.length_flatMap, Nat.mul_comm]

/-- ANALYZE counts the bits that PACK writes. -/
theorem databits_eq_length (m : Mode) (text : List Byte) : databits m text.length = (dataStream m text).length := by
  cases m with
  | numeric =>
    rw [dataStream, packNumeric_length, databits]
    congr 1
    have hlt : text.length % 3 < 3 := Nat.mod_lt _ (by decide)
    interval_cases text.length % 3 <;> rfl
  | alphanumeric => exact (packAlphanumeric_length text).symm
  | byte => exact (packByte_length text).symm
  | kanji => exact (packByte_length text).symm

/-! ### Padding (R117 to R119) -/

theorem padCodewords_eq_flatMap (start n : Nat) :
    padCodewords start n = (List.range n).flatMap fun i => bitsMsb 8 (if (start + i) % 2 = 0 then 0xEC else 0x11) := by
  induction n generalizing start with
  | zero => rfl
  | succ n ih =>
    rw [padCodewords, ih, List.range_succ_eq_map, List.flatMap_cons, List.flatMap_map]
    simp only [Nat.add_zero, Nat.succ_eq_add_one, Nat.add_right_comm, Nat.add_assoc]

theorem padCodewords_length (start n : Nat) : (padCodewords start n).length = 8 * n := by
  induction n generalizing start with
  | zero => rfl
  | succ n ih =>
    rw [padCodewords, List.length_append, bitsMsb_length, ih]
    omega

/-- A terminator and bit padding that start at bit `n` end on a byte boundary within the capacity. -/
theorem padding_ends_on_byte {cap n z p : Nat} (h8 : cap % 8 = 0) (h : n ≤ cap) (hz : z = min 4 (cap - n))
    (hp : p = (8 - (n + z) % 8) % 8) : (n + z + p) % 8 = 0 ∧ n + z + p ≤ cap := by
  omega

theorem bytePadded_terminated {cap z p : Nat} {used : List Bool} (hz : z = min 4 (cap - used.length))
    (hp : p = (8 - (used.length + z) % 8) % 8) :
    bytePadded (terminated cap used) = used ++ List.replicate (z + p) false := by
  rw [bytePadded, terminated, ← hz, List.length_append, List.length_replicate, ← hp, List.append_assoc,
    List.replicate_append_replicate]

/-- Pad codewords fill the rest of the capacity exactly, so that the cut at the capacity cuts nothing off. -/
theorem packedStream_eq {cap z p : Nat} {used : List Bool} (h8 : cap % 8 = 0) (h : used.length ≤ cap)
    (hz : z = min 4 (cap - used.length)) (hp : p = (8 - (used.length + z) % 8) % 8) :
    packedStream cap used =
        used ++ List.replicate (z + p) false ++ padCodewords 0 ((cap - used.length - z - p) / 8) ∧
      (packedStream cap used).length = cap := by
  obtain ⟨hbyte, hcap⟩ := padding_ends_on_byte h8 h hz hp
  have hcount : (cap - (used.length + (z + p)) + 7) / 8 = (cap - used.length - z - p) / 8 := by omega
  have hlen : (used ++ List.replicate (z + p) false ++ padCodewords 0 ((cap - used.length - z - p) / 8)).length = cap := by
    simp only [List.length_append, List.length_replicate, padCodewords_length]
    omega
  have heq : packedStream cap used =
      used ++ List.replicate (z + p) false ++ padCodewords 0 ((cap - used.length - z - p) / 8) := by
    rw [packedStream, bytePadded_terminated hz hp, capacityPadded, List.length_append, List.length_replicate, hcount,
      List.take_of_length_le hlen.le]
  exact ⟨heq, heq ▸ hlen⟩

/-! ### Slicing (R120) -/

@[simp] theorem sliceCodewords_length (n : Nat) (bits : List Bool) : (sliceCodewords n bits).length = n := by
  simp [sliceCodewords]

theorem sliceCodewords_getD {n i : Nat} (bits : List Bool) (h : i < n) :
    (sliceCodewords n bits).getD i 0 = BitVec.ofNat 8 (natOfBits ((bits.drop (8 * i)).take 8)) := by
  simp [sliceCodewords, h]

/-- The bits of codeword `i`, counted from its last, are those of the stream from bit `8i` on, counted from its first. -/
theorem getD_reverse_byte {bits : List Bool} {i j : Nat} (h : 8 * i + 8 ≤ bits.length) (hj : j < 8) :
    ((bits.drop (8 * i)).take 8).reverse.getD (7 - j) false = bits.getD (8 * i + j) false := by
  have hlen : ((bits.drop (8 * i)).take 8).length = 8 := by
    rw [List.length_take, List.length_drop]
    omega
  have hidx : 8 - 1 - (7 - j) = j := by omega
  rw [List.getD_eq_getElem?_getD, List.getElem?_reverse (by omega), hlen, hidx, List.getElem?_take_of_lt hj,
    List.getElem?_drop, ← List.getD_eq_getElem?_getD]

theorem sliceCodewords_getLsbD {n i j : Nat} {bits : List Bool} (h : 8 * n ≤ bits.length) (hi : i < n) (hj : j < 8) :
    ((sliceCodewords n bits).getD i 0).getLsbD (7 - j) = bits.getD (8 * i + j) false := by
  have hbit : decide (7 - j < 8) = true := decide_eq_true (by omega)
  rw [sliceCodewords_getD bits hi, BitVec.getLsbD_ofNat, hbit, Bool.true_and, testBit_natOfBits,
    getD_reverse_byte (by omega) hj]

/-- Settles O53: what stands at the start of the text left after `i` groups stands `i` fields into the data bits. -/
theorem packedStreamShape : Obligations.PackedStreamShape := by
  refine ⟨fun n v => ⟨bitsMsb_length n v, natOfBits_bitsMsb⟩, fun text hdigits => ⟨?_, ?_, ?_⟩, by decide,
    fun text hclass => ⟨?_, ?_⟩, fun text i hi => packByte_byte hi,
    fun text => ⟨packNumeric_length text, packAlphanumeric_length text, packByte_length text,
      fun m => databits_eq_length m text⟩,
    fun cap used h8 h => ?_,
    fun n bits h => ⟨sliceCodewords_length n bits, fun i hi j hj => sliceCodewords_getLsbD h hi hj⟩⟩
  · exact fun i hi => packNumeric_three hdigits (by omega)
  · exact fun h => packNumeric_two hdigits (by omega)
  · exact fun h => packNumeric_one hdigits (by omega)
  · exact fun i hi => packAlphanumeric_two hclass (by omega)
  · exact fun h => packAlphanumeric_one hclass (by omega)
  · have hstream := packedStream_eq h8 h rfl rfl
    rw [padCodewords_eq_flatMap] at hstream
    simpa only [Nat.zero_add] using hstream

end Sys2Proof.Machine
end

section
/-! The field of the tables (41_gf256.md R130 to R136): the non-zero bytes are the powers of the primitive element, each the
double of the one before, and multiplication is additive, so its values at the powers of 2 decide it. -/

namespace Sys2Proof.Machine

/-! ### Reduction steps are additive (R130, R131) -/

/-- The sum of two conditional additions of one constant. -/
theorem xor_if_xor {n : Nat} (p q : Bool) (v w k : BitVec n) :
    (if (p ^^ q) = true then (v ^^^ w) ^^^ k else v ^^^ w) =
      (if p = true then v ^^^ k else v) ^^^ (if q = true then w ^^^ k else w) := by
  cases p <;> cases q
  · rfl
  · exact BitVec.xor_assoc v w k
  · have hcomm : (v ^^^ w) ^^^ k = (v ^^^ k) ^^^ w := by ac_rfl
    exact hcomm
  · have hcancel : (v ^^^ k) ^^^ (w ^^^ k) = (v ^^^ w) ^^^ (k ^^^ k) := by ac_rfl
    simp [hcancel]

theorem gfDouble_xor (x y : Byte) : gfDouble (x ^^^ y) = gfDouble x ^^^ gfDouble y := by
  simp only [gfDouble, BitVec.setWidth_xor, BitVec.shiftLeft_xor_distrib, BitVec.getLsbD_xor, xor_if_xor]

theorem reduceField_xor (v w : BitVec 15) : reduceField (v ^^^ w) = reduceField v ^^^ reduceField w := by
  unfold reduceField
  rw [← BitVec.setWidth_xor]
  refine congrArg _ (List.foldl_hom₂ _ (· ^^^ ·) _ _ _ v w fun v w i => ?_)
  simp only [BitVec.getLsbD_xor, xor_if_xor]

/-! ### The tables (R131, R132) -/

theorem gfExp_succ : ∀ i < 255, gfExp (i + 1) = gfDouble (gfExp i) := by decide +kernel

theorem gfLog_gfExp : ∀ i < 255, gfLog (gfExp i) = i := by decide +kernel

theorem gfExp_gfLog : ∀ a : Byte, a ≠ 0 → gfLog a ≤ 254 ∧ gfExp (gfLog a) = a := by decide +kernel

/-- Only the first entry can have logarithm 0, as 0 has. -/
theorem gfExp_ne_zero {i : Nat} (h : i < 255) : gfExp i ≠ 0 := by
  intro hzero
  obtain rfl : i = 0 := by rw [← gfLog_gfExp i h, hzero]; rfl
  exact absurd hzero (by decide)

/-! ### Powers of the primitive element -/

/-- `α^i` for every exponent: the table of R131 is one period. -/
def alphaPow (i : Nat) : Byte := gfExp (i % 255)

theorem alphaPow_of_lt {i : Nat} (h : i < 255) : alphaPow i = gfExp i := by rw [alphaPow, Nat.mod_eq_of_lt h]

theorem alphaPow_zero : alphaPow 0 = 1 := by decide

theorem alphaPow_ne_zero (i : Nat) : alphaPow i ≠ 0 := gfExp_ne_zero (Nat.mod_lt _ (by decide))

theorem gfLog_alphaPow (i : Nat) : gfLog (alphaPow i) = i % 255 := gfLog_gfExp _ (Nat.mod_lt _ (by decide))

theorem alphaPow_gfLog {a : Byte} (h : a ≠ 0) : alphaPow (gfLog a) = a := by
  obtain ⟨hlt, hexp⟩ := gfExp_gfLog a h
  rw [alphaPow_of_lt (by omega), hexp]

/-- The step from one period to the next is the step from entry 254 to entry 255, which is entry 0 again. -/
theorem alphaPow_succ (i : Nat) : alphaPow (i + 1) = gfDouble (alphaPow i) := by
  have hlt : i % 255 < 255 := Nat.mod_lt _ (by decide)
  rw [alphaPow, alphaPow, ← gfExp_succ _ hlt, Nat.add_mod]
  rcases eq_or_ne (i % 255) 254 with hlast | hlast
  · rw [hlast]
    decide
  · rw [Nat.mod_eq_of_lt (show i % 255 + 1 % 255 < 255 by omega)]

theorem eq_zero_or_alphaPow (a : Byte) : a = 0 ∨ ∃ i, a = alphaPow i :=
  (eq_or_ne a 0).imp_right fun h => ⟨gfLog a, (alphaPow_gfLog h).symm⟩

/-! ### The field product (R134) -/

theorem zero_gfmul (b : Byte) : gfmul 0 b = 0 := if_pos (.inl rfl)

theorem gfmul_zero (a : Byte) : gfmul a 0 = 0 := if_pos (.inr rfl)

theorem gfmul_alphaPow (i j : Nat) : gfmul (alphaPow i) (alphaPow j) = alphaPow (i + j) := by
  rw [gfmul, if_neg (not_or.mpr ⟨alphaPow_ne_zero i, alphaPow_ne_zero j⟩), gfLog_alphaPow, gfLog_alphaPow,
    ← Nat.add_mod, alphaPow]

theorem gfmul_comm (a b : Byte) : gfmul a b = gfmul b a := by
  simp only [gfmul, or_comm (a := a = 0), Nat.add_comm (gfLog a)]

theorem gfmul_assoc (a b c : Byte) : gfmul (gfmul a b) c = gfmul a (gfmul b c) := by
  rcases eq_zero_or_alphaPow a with rfl | ⟨i, rfl⟩
  · simp only [zero_gfmul]
  rcases eq_zero_or_alphaPow b with rfl | ⟨j, rfl⟩
  · simp only [zero_gfmul, gfmul_zero]
  rcases eq_zero_or_alphaPow c with rfl | ⟨k, rfl⟩
  · simp only [gfmul_zero]
  simp only [gfmul_alphaPow, Nat.add_assoc]

theorem gfmul_one (a : Byte) : gfmul a 1 = a := by
  rcases eq_zero_or_alphaPow a with rfl | ⟨i, rfl⟩
  · rfl
  · rw [← alphaPow_zero, gfmul_alphaPow, Nat.add_zero]

theorem one_gfmul (a : Byte) : gfmul 1 a = a := by rw [gfmul_comm, gfmul_one]

theorem gfmul_eq_zero_iff {a b : Byte} : gfmul a b = 0 ↔ a = 0 ∨ b = 0 := by
  refine ⟨fun h => ?_, fun h => if_pos h⟩
  by_contra hne
  rw [gfmul, if_neg hne] at h
  exact gfExp_ne_zero (Nat.mod_lt _ (by decide)) h

/-- Multiplying by the next power doubles the product. -/
theorem gfmul_alphaPow_succ (a : Byte) (n : Nat) : gfmul a (alphaPow (n + 1)) = gfDouble (gfmul a (alphaPow n)) := by
  rcases eq_zero_or_alphaPow a with rfl | ⟨i, rfl⟩
  · rw [zero_gfmul, zero_gfmul]
    decide
  · rw [gfmul_alphaPow, gfmul_alphaPow, ← alphaPow_succ, Nat.add_assoc]

theorem gfmul_two (a : Byte) : gfmul a 2 = gfDouble a := by
  have htwo : (2 : Byte) = alphaPow (0 + 1) := by decide
  rw [htwo, gfmul_alphaPow_succ, alphaPow_zero, gfmul_one]

/-- The second factor is 0 or a power, and doubling, which makes the next power, is additive. -/
theorem xor_gfmul (a b c : Byte) : gfmul (a ^^^ b) c = gfmul a c ^^^ gfmul b c := by
  rcases eq_zero_or_alphaPow c with rfl | ⟨n, rfl⟩
  · rw [gfmul_zero, gfmul_zero, gfmul_zero]
    rfl
  induction n with
  | zero => simp only [alphaPow_zero, gfmul_one]
  | succ n ih => rw [gfmul_alphaPow_succ, ih, gfDouble_xor, ← gfmul_alphaPow_succ, ← gfmul_alphaPow_succ]

theorem gfmul_xor (a b c : Byte) : gfmul a (b ^^^ c) = gfmul a b ^^^ gfmul a c := by
  rw [gfmul_comm, xor_gfmul, gfmul_comm b, gfmul_comm c]

/-- `gfInv` is the inverse of a non-zero byte. -/
theorem gfmul_gfInv {a : Byte} (h : a ≠ 0) : gfmul a (gfInv a) = 1 := by
  have hlog := (gfExp_gfLog a h).1
  calc gfmul a (gfInv a)
    _ = gfmul (alphaPow (gfLog a)) (alphaPow (255 - gfLog a)) := by rw [alphaPow_gfLog h, gfInv, alphaPow]
    _ = alphaPow 255 := by rw [gfmul_alphaPow, show gfLog a + (255 - gfLog a) = 255 by omega]
    _ = 1 := by decide

theorem gfmul_eq_one_iff {a : Byte} (h : a ≠ 0) (b : Byte) : gfmul a b = 1 ↔ b = gfInv a := by
  refine ⟨fun hab => ?_, fun hb => hb ▸ gfmul_gfInv h⟩
  calc b
    _ = gfmul (gfmul a (gfInv a)) b := by rw [gfmul_gfInv h, one_gfmul]
    _ = gfmul (gfInv a) (gfmul a b) := by rw [gfmul_comm a, gfmul_assoc]
    _ = gfInv a := by rw [hab, gfmul_one]

/-! ### Additive functions of a byte -/

/-- What `f` makes of each power of 2 in `b`, added up. -/
def sumOverBits {n : Nat} (f : Byte → BitVec n) (b : Byte) : BitVec n :=
  (List.range 8).foldl (fun v i => if b.getLsbD i then v ^^^ f (1 <<< i) else v) 0

theorem sumOverBits_id : ∀ b : Byte, sumOverBits id b = b := by decide +kernel

theorem sumOverBits_congr {n : Nat} {f g : Byte → BitVec n} (h : ∀ i < 8, f (1 <<< i) = g (1 <<< i)) (b : Byte) :
    sumOverBits f b = sumOverBits g b :=
  List.foldl_ext _ _ _ fun v i hi => by rw [h i (List.mem_range.mp hi)]

/-- An additive function of what `f` adds up. -/
theorem map_sumOverBits {m n : Nat} {g : BitVec m → BitVec n} (hg : ∀ x y, g (x ^^^ y) = g x ^^^ g y)
    (f : Byte → BitVec m) (b : Byte) : g (sumOverBits f b) = sumOverBits (g ∘ f) b := by
  have hzero : g 0 = 0 := by simpa using hg 0 0
  rw [sumOverBits, sumOverBits, ← hzero]
  refine (List.foldl_hom g fun v i => ?_).symm
  rw [apply_ite g, hg, Function.comp_apply]

theorem eq_sumOverBits {n : Nat} {f : Byte → BitVec n} (hf : ∀ x y, f (x ^^^ y) = f x ^^^ f y) (b : Byte) :
    f b = sumOverBits f b := by
  rw [← Function.comp_id f, ← map_sumOverBits hf, sumOverBits_id, Function.comp_id]

/-- Additive functions that agree at the powers of 2 are the same. -/
theorem additive_ext {n : Nat} {f g : Byte → BitVec n} (hf : ∀ x y, f (x ^^^ y) = f x ^^^ f y)
    (hg : ∀ x y, g (x ^^^ y) = g x ^^^ g y) (h : ∀ i < 8, f (1 <<< i) = g (1 <<< i)) (b : Byte) : f b = g b := by
  rw [eq_sumOverBits hf, eq_sumOverBits hg, sumOverBits_congr h]

/-! ### The carry-less product reduced (R135) -/

/-- Folds that start at 0 add up if their steps do. -/
theorem foldl_zero_xor {n : Nat} {step step₁ step₂ : BitVec n → Nat → BitVec n}
    (h : ∀ v w i, step (v ^^^ w) i = step₁ v i ^^^ step₂ w i) (l : List Nat) :
    l.foldl step 0 = l.foldl step₁ 0 ^^^ l.foldl step₂ 0 := by
  simpa using List.foldl_hom₂ l (· ^^^ ·) step₁ step₂ step 0 0 fun v w i => (h v w i).symm

theorem carrylessProduct_xor (a b c : Byte) :
    carrylessProduct a (b ^^^ c) = carrylessProduct a b ^^^ carrylessProduct a c := by
  refine foldl_zero_xor (fun v w i => ?_) _
  rw [BitVec.getLsbD_xor, xor_if_xor]

theorem xor_carrylessProduct (a b c : Byte) :
    carrylessProduct (a ^^^ b) c = carrylessProduct a c ^^^ carrylessProduct b c := by
  refine foldl_zero_xor (fun v w i => ?_) _
  rw [BitVec.setWidth_xor, BitVec.shiftLeft_xor_distrib]
  split
  · ac_rfl
  · rfl

theorem gfmul_twoPow_twoPow : ∀ i < 8, ∀ j < 8,
    gfmul (1 <<< i) (1 <<< j) = reduceField (carrylessProduct (1 <<< i) (1 <<< j)) := by decide +kernel

/-- Both sides are additive in each factor. -/
theorem gfmul_eq_reduceField_carrylessProduct (a b : Byte) : gfmul a b = reduceField (carrylessProduct a b) := by
  refine additive_ext (g := fun b => reduceField (carrylessProduct a b)) (gfmul_xor a) ?_ (fun j hj => ?_) b
  · intro x y
    rw [carrylessProduct_xor, reduceField_xor]
  refine additive_ext (f := fun a => gfmul a (1 <<< j)) (g := fun a => reduceField (carrylessProduct a (1 <<< j)))
    (fun x y => xor_gfmul x y _) ?_ (fun i hi => gfmul_twoPow_twoPow i hi j hj) a
  intro x y
  rw [xor_carrylessProduct, reduceField_xor]

/-- Settles O46: the tables hold one period of the powers of the primitive element, and the product adds exponents and is
additive. -/
theorem fieldLaws : Obligations.FieldLaws := by
  refine ⟨⟨by decide, gfExp_succ, by decide⟩, gfLog_gfExp, by decide, gfExp_gfLog, fun a b c => ?_⟩
  exact ⟨gfmul_comm a b, gfmul_assoc a b c, gfmul_one a, gfmul_xor a b c, fun ha => gfmul_eq_one_iff ha b, gfmul_two a,
    gfmul_eq_reduceField_carrylessProduct a b⟩

end Sys2Proof.Machine
end

section
/-! Polynomials over the field and the generator polynomials (41_gf256.md R137 to R139): what a sum and a product are at a
point, and the roots of the generator. -/

namespace Sys2Proof.Machine

/-! ### Horner's rule from any start (R171) -/

/-- Horner's rule on the coefficients `p` after a polynomial with the value `v`: `v · x^(length p) + p(x)`. -/
def evalFrom (x v : Byte) (p : List Byte) : Byte := p.foldl (fun v c => gfmul v x ^^^ c) v

theorem evalHigh_eq_evalFrom (x : Byte) (p : List Byte) : evalHigh x p = evalFrom x 0 p := rfl

theorem evalFrom_cons (x v c : Byte) (p : List Byte) : evalFrom x v (c :: p) = evalFrom x (gfmul v x ^^^ c) p := rfl

/-- `v · x^k`. -/
def mulPow (x : Byte) (k : Nat) (v : Byte) : Byte := (gfmul · x)^[k] v

theorem mulPow_zero (x v : Byte) : mulPow x 0 v = v := rfl

theorem mulPow_succ (x : Byte) (k : Nat) (v : Byte) : mulPow x (k + 1) v = mulPow x k (gfmul v x) := rfl

theorem mulPow_gfmul (x : Byte) (k : Nat) (v c : Byte) : mulPow x k (gfmul v c) = gfmul (mulPow x k v) c := by
  induction k generalizing v with
  | zero => rfl
  | succ k ih => rw [mulPow_succ, mulPow_succ, ← ih, gfmul_assoc, gfmul_comm c, ← gfmul_assoc]

theorem evalFrom_xor (x v w : Byte) (p : List Byte) :
    evalFrom x (v ^^^ w) p = mulPow x p.length v ^^^ evalFrom x w p := by
  induction p generalizing v w with
  | nil => rfl
  | cons c p ih =>
    rw [evalFrom_cons, evalFrom_cons, List.length_cons, mulPow_succ, ← ih, xor_gfmul, BitVec.xor_assoc]

theorem evalFrom_eq (x v : Byte) (p : List Byte) : evalFrom x v p = mulPow x p.length v ^^^ evalHigh x p := by
  rw [evalHigh_eq_evalFrom, ← evalFrom_xor, BitVec.ofNat_eq_ofNat, BitVec.xor_zero]

theorem evalHigh_cons (x c : Byte) (p : List Byte) : evalHigh x (c :: p) = mulPow x p.length c ^^^ evalHigh x p := by
  rw [← evalFrom_eq, evalHigh_eq_evalFrom, evalFrom_cons, zero_gfmul, BitVec.ofNat_eq_ofNat, BitVec.zero_xor]

/-- Leading zeros do not count. -/
theorem evalHigh_zero_cons (x : Byte) (p : List Byte) : evalHigh x (0 :: p) = evalHigh x p := by
  rw [evalHigh_eq_evalFrom, evalHigh_eq_evalFrom, evalFrom_cons, zero_gfmul, BitVec.xor_self, BitVec.ofNat_eq_ofNat]

theorem evalHigh_singleton (x c : Byte) : evalHigh x [c] = c := (evalHigh_cons x c []).trans BitVec.xor_zero

/-! ### Sums, multiples and products at a point (R137) -/

/-- The first coefficients are added, so that the value of the shorter list counts for a higher power. -/
theorem evalFrom_xorLists {p q : List Byte} (h : p.length ≤ q.length) (x v w : Byte) :
    evalFrom x (v ^^^ w) (xorLists p q) = mulPow x (q.length - p.length) (evalFrom x v p) ^^^ evalFrom x w q := by
  induction p, q using xorLists.induct generalizing v w with
  | case1 q => exact evalFrom_xor x v w q
  | case2 p hp =>
    obtain rfl : p = [] := List.eq_nil_of_length_eq_zero (Nat.le_zero.mp h)
    exact (hp rfl).elim
  | case3 a p b q ih =>
    simp only [List.length_cons, Nat.add_le_add_iff_right] at h
    have hstep : gfmul (v ^^^ w) x ^^^ (a ^^^ b) = (gfmul v x ^^^ a) ^^^ (gfmul w x ^^^ b) := by
      rw [xor_gfmul]
      ac_rfl
    rw [xorLists, evalFrom_cons, hstep, ih h, List.length_cons, List.length_cons, Nat.add_sub_add_right, evalFrom_cons,
      evalFrom_cons]

theorem evalHigh_xorLists {p q : List Byte} (h : p.length ≤ q.length) (x : Byte) :
    evalHigh x (xorLists p q) = mulPow x (q.length - p.length) (evalHigh x p) ^^^ evalHigh x q :=
  evalFrom_xorLists h x 0 0

theorem evalFrom_map_gfmul (x a v : Byte) (q : List Byte) :
    evalFrom x (gfmul a v) (q.map (gfmul a)) = gfmul a (evalFrom x v q) := by
  induction q generalizing v with
  | nil => rfl
  | cons c q ih => rw [List.map_cons, evalFrom_cons, evalFrom_cons, gfmul_assoc, ← gfmul_xor, ih]

theorem evalHigh_map_gfmul (x a : Byte) (q : List Byte) : evalHigh x (q.map (gfmul a)) = gfmul a (evalHigh x q) := by
  rw [evalHigh_eq_evalFrom, evalHigh_eq_evalFrom, ← evalFrom_map_gfmul, gfmul_zero]

theorem polyMul_cons_cons (a b : Byte) (p q : List Byte) :
    polyMul (a :: b :: p) q = xorLists (q.map (gfmul a)) (0 :: polyMul (b :: p) q) := rfl

/-- A product has the product of the values. -/
theorem evalHigh_polyMul {p q : List Byte} (hp : p ≠ []) (hq : q ≠ []) (x : Byte) :
    evalHigh x (polyMul p q) = gfmul (evalHigh x p) (evalHigh x q) := by
  have hqlen := List.length_pos_iff.mpr hq
  induction p with
  | nil => exact (hp rfl).elim
  | cons a p ih =>
    cases p with
    | nil => rw [polyMul, evalHigh_map_gfmul, evalHigh_singleton]
    | cons b p =>
      have hlen : (0 :: polyMul (b :: p) q).length = (b :: p).length + q.length := by
        rw [List.length_cons, polyMul_length hq (List.cons_ne_nil b p)]
        omega
      have hle : (q.map (gfmul a)).length ≤ (0 :: polyMul (b :: p) q).length := by
        rw [hlen, List.length_map]
        omega
      calc evalHigh x (polyMul (a :: b :: p) q)
        _ = mulPow x (b :: p).length (gfmul a (evalHigh x q)) ^^^ evalHigh x (0 :: polyMul (b :: p) q) := by
          rw [polyMul_cons_cons, evalHigh_xorLists hle, hlen, List.length_map, Nat.add_sub_cancel, evalHigh_map_gfmul]
        _ = gfmul (mulPow x (b :: p).length a) (evalHigh x q) ^^^ gfmul (evalHigh x (b :: p)) (evalHigh x q) := by
          rw [mulPow_gfmul, evalHigh_zero_cons, ih (List.cons_ne_nil b p)]
        _ = gfmul (evalHigh x (a :: b :: p)) (evalHigh x q) := by rw [evalHigh_cons x a, xor_gfmul]

/-- The leading coefficients are multiplied. -/
theorem polyMul_head? (a : Byte) (p : List Byte) (b : Byte) (q : List Byte) :
    (polyMul (a :: p) (b :: q)).head? = some (gfmul a b) := by
  cases p with
  | nil => rfl
  | cons c p =>
    rw [polyMul_cons_cons, List.map_cons, xorLists, List.head?_cons]
    exact congrArg some BitVec.xor_zero

/-! ### The generator polynomial (R137, R138) -/

theorem genpoly_ne_nil (n : Nat) : genpoly n ≠ [] := List.ne_nil_of_length_eq_add_one (genpoly_length n)

theorem genpoly_head? (n : Nat) : (genpoly n).head? = some 1 := by
  induction n with
  | zero => rfl
  | succ n ih =>
    obtain ⟨p, hp⟩ := List.head?_eq_some_iff.mp ih
    rw [genpoly_succ, hp, polyMul_head?, gfmul_one]

/-- The factor of the root `e` at `x`. -/
theorem evalHigh_factor (x e : Byte) : evalHigh x [1, e] = x ^^^ e := by
  rw [evalHigh_cons, evalHigh_singleton, List.length_singleton, mulPow_succ, mulPow_zero, one_gfmul]

theorem evalHigh_genpoly_eq_zero_iff (n : Nat) (x : Byte) : evalHigh x (genpoly n) = 0 ↔ ∃ i < n, x = gfExp i := by
  induction n with
  | zero =>
    have hone : evalHigh x (genpoly 0) = 1 := evalHigh_singleton x 1
    simp [hone]
  | succ n ih =>
    rw [genpoly_succ, evalHigh_polyMul (genpoly_ne_nil n) (List.cons_ne_nil _ _), gfmul_eq_zero_iff, ih, evalHigh_factor,
      BitVec.ofNat_eq_ofNat, BitVec.xor_eq_zero_iff, Nat.exists_lt_succ_right]

/-- Settles O47: each factor of the generator has one root, and a product is zero where a factor is. -/
theorem generatorRoots : Obligations.GeneratorRoots :=
  ⟨⟨by decide, by decide, by decide, by decide, by decide⟩,
    fun n _ => ⟨genpoly_length n, genpoly_head? n, evalHigh_genpoly_eq_zero_iff n⟩⟩

end Sys2Proof.Machine
end

section
/-! GFMUL and GFGEN (41_gf256.md R134, R136, R139): both rules complete, GFGEN's wherever `n` is in range. -/

namespace Sys2Proof.Machine

/-- Settles O30: GFMUL has no operand range and its rule completes. -/
theorem gfmulCompletes : Obligations.GfmulCompletes := by
  intro a b s hhalt hready
  rw [exec_runs (i := .gfmul a b) hhalt rfl hready, ruleOf, ruleGfmul, conclude, gfmul, apply_ite (BitVec.setWidth 32)]
  exact rfl

/-- Settles O31: GFGEN's rule completes in its range, which 255 is outside of. -/
theorem gfgenCompletes : Obligations.GfgenCompletes := by
  intro n s hhalt hready
  refine ⟨fun h => ?_, fun h => ?_⟩
  · refine ⟨_, exec_runs (i := .gfgen n) hhalt (decide_eq_true h) hready, ?_⟩
    exact rfl
  · subst h
    exact exec_outOfRange hhalt rfl

end Sys2Proof.Machine
end

section
/-! Check codewords (42_rs_encoder.md R151, R153): the long division keeps the value at every root of its divisor and is
linear in the dividend. -/

namespace Sys2Proof.Machine

/-! ### Sums of coefficient lists -/

theorem xorLists_nil (p : List Byte) : xorLists p [] = p := by cases p <;> rfl

theorem xorLists_comm (p q : List Byte) : xorLists p q = xorLists q p := by
  induction p, q using xorLists.induct with
  | case1 q => rw [xorLists_nil, xorLists]
  | case2 p hp => rw [xorLists_nil, xorLists]
  | case3 a p b q ih => rw [xorLists, xorLists, ih, BitVec.xor_comm]

theorem xorLists_map_gfmul_zero {p q : List Byte} (h : q.length ≤ p.length) : xorLists p (q.map (gfmul 0)) = p := by
  induction p, q using xorLists.induct with
  | case1 q =>
    obtain rfl := List.eq_nil_of_length_eq_zero (Nat.le_zero.mp h)
    rfl
  | case2 p hp => exact xorLists_nil p
  | case3 a p b q ih =>
    rw [List.map_cons, xorLists, zero_gfmul, ih (Nat.le_of_succ_le_succ h)]
    exact congrArg (· :: p) BitVec.xor_zero

/-- Adding a multiple of `g` is linear. -/
theorem xorLists_map_gfmul_xor (g : List Byte) (c d : Byte) {a b : List Byte} (h : a.length = b.length) :
    xorLists (List.zipWith (· ^^^ ·) a b) (g.map (gfmul (c ^^^ d))) =
      List.zipWith (· ^^^ ·) (xorLists a (g.map (gfmul c))) (xorLists b (g.map (gfmul d))) := by
  induction g generalizing a b with
  | nil => simp only [List.map_nil, xorLists_nil]
  | cons e g ih =>
    cases a with
    | nil =>
      obtain rfl := List.eq_nil_of_length_eq_zero h.symm
      rw [List.zipWith_nil_left, xorLists, xorLists, xorLists, List.zipWith_map, List.zipWith_self]
      exact List.map_congr_left fun x _ => xor_gfmul c d x
    | cons x a =>
      cases b with
      | nil => simp at h
      | cons y b =>
        simp only [List.map_cons, List.zipWith_cons_cons, xorLists, ih (Nat.succ.inj h), xor_gfmul]
        congr 1
        ac_rfl

/-! ### A step of the long division (R151) -/

/-- Skipping the step where the leading coefficient is 0 is no case of its own. -/
theorem divStep_cons {g m : List Byte} (h : g.length ≤ m.length + 1) (c : Byte) :
    divStep g (c :: m) = xorLists m (g.tail.map (gfmul c)) := by
  have hcomm : (g.map fun a => gfmul a c) = g.map (gfmul c) := List.map_congr_left fun a _ => gfmul_comm a c
  rw [divStep, hcomm]
  split
  · next hc => rw [hc, xorLists_map_gfmul_zero (by rw [List.length_tail]; omega)]
  · cases g with
    | nil => rw [List.map_nil, xorLists_nil, List.tail_nil, List.map_nil, xorLists_nil, List.tail_cons]
    | cons e g => rfl

theorem divStep_xor (g : List Byte) {a b : List Byte} (hab : a.length = b.length) (hg : g.length ≤ a.length) :
    divStep g (List.zipWith (· ^^^ ·) a b) = List.zipWith (· ^^^ ·) (divStep g a) (divStep g b) := by
  match a, b with
  | [], [] => rfl
  | x :: a, y :: b =>
    have hab' : a.length = b.length := Nat.succ.inj hab
    have hlen : (List.zipWith (· ^^^ ·) a b).length = a.length := by simp [hab']
    rw [List.length_cons] at hg
    rw [List.zipWith_cons_cons, divStep_cons (hlen ▸ hg), divStep_cons hg, divStep_cons (hab' ▸ hg),
      xorLists_map_gfmul_xor _ _ _ hab']

/-- The multiple of the divisor taken off is 0 at its roots. -/
theorem evalHigh_divStep {g m : List Byte} {x : Byte} (hg1 : g.head? = some 1) (hx : evalHigh x g = 0)
    (h : g.length ≤ m.length) : evalHigh x (divStep g m) = evalHigh x m := by
  obtain ⟨g, rfl⟩ := List.head?_eq_some_iff.mp hg1
  cases m with
  | nil => rfl
  | cons c m =>
    have hlead : xorLists ((1 :: g).map (gfmul c)) (c :: m) = 0 :: divStep (1 :: g) (c :: m) := by
      rw [divStep_cons h, List.map_cons, xorLists, gfmul_one, List.tail_cons, xorLists_comm m]
      exact congrArg (· :: _) BitVec.xor_self
    calc evalHigh x (divStep (1 :: g) (c :: m))
      _ = evalHigh x (xorLists ((1 :: g).map (gfmul c)) (c :: m)) := by rw [hlead, evalHigh_zero_cons]
      _ = gfmul (mulPow x ((c :: m).length - (1 :: g).length) c) (evalHigh x (1 :: g)) ^^^ evalHigh x (c :: m) := by
        rw [evalHigh_xorLists (by rwa [List.length_map]), evalHigh_map_gfmul, mulPow_gfmul, List.length_map]
      _ = evalHigh x (c :: m) := by rw [hx, gfmul_zero, BitVec.ofNat_eq_ofNat, BitVec.zero_xor]

/-! ### The long division (R151) -/

theorem divide_xor (g : List Byte) (k : Nat) {a b : List Byte} (hab : a.length = b.length)
    (hg : k = 0 ∨ g.length + k ≤ a.length + 1) :
    divide g k (List.zipWith (· ^^^ ·) a b) = List.zipWith (· ^^^ ·) (divide g k a) (divide g k b) := by
  induction k generalizing a b with
  | zero => rfl
  | succ k ih =>
    have ha := divStep_length (g := g) (m := a) (by omega)
    have hb := divStep_length (g := g) (m := b) (by omega)
    rw [divide, divStep_xor g hab (by omega), ih (by omega) (by omega), divide, divide]

theorem evalHigh_divide {g : List Byte} {x : Byte} (hg1 : g.head? = some 1) (hx : evalHigh x g = 0) (k : Nat)
    {m : List Byte} (hg : k = 0 ∨ g.length + k ≤ m.length + 1) : evalHigh x (divide g k m) = evalHigh x m := by
  induction k generalizing m with
  | zero => rfl
  | succ k ih =>
    have hm := divStep_length (g := g) (m := m) (by omega)
    rw [divide, ih (by omega), evalHigh_divStep hg1 hx (by omega)]

/-! ### Check codewords (R151, R153) -/

/-- The dividend is long enough for one step for every data codeword. -/
theorem genpoly_length_add_le (data : List Byte) (n : Nat) :
    (genpoly n).length + data.length ≤ (data ++ List.replicate n (0 : Byte)).length + 1 := by
  rw [genpoly_length, List.length_append, List.length_replicate]
  omega

theorem evalHigh_append (x : Byte) (p q : List Byte) :
    evalHigh x (p ++ q) = mulPow x q.length (evalHigh x p) ^^^ evalHigh x q := by
  rw [← evalFrom_eq, evalHigh_eq_evalFrom, evalHigh_eq_evalFrom, evalFrom, List.foldl_append, evalFrom, evalFrom]

theorem evalHigh_replicate_zero (x : Byte) (n : Nat) : evalHigh x (List.replicate n 0) = 0 := by
  induction n with
  | zero => rfl
  | succ n ih => rw [List.replicate_succ, evalHigh_zero_cons, ih]

/-- The check codewords are the data codewords shifted by `n`, reduced modulo the generator: both have the same value at the
generator's roots. -/
theorem evalHigh_append_rsecc (data : List Byte) {n : Nat} {x : Byte} (hx : evalHigh x (genpoly n) = 0) :
    evalHigh x (data ++ rsecc data n) = 0 := by
  have hrem : evalHigh x (rsecc data n) = mulPow x n (evalHigh x data) := by
    calc evalHigh x (rsecc data n)
      _ = evalHigh x (data ++ List.replicate n 0) :=
        evalHigh_divide (genpoly_head? n) hx _ (.inr (genpoly_length_add_le data n))
      _ = mulPow x n (evalHigh x data) := by
        rw [evalHigh_append, evalHigh_replicate_zero, List.length_replicate, BitVec.ofNat_eq_ofNat, BitVec.xor_zero]
  rw [evalHigh_append, rsecc_length, hrem, BitVec.xor_self, BitVec.ofNat_eq_ofNat]

theorem syndromes_append_rsecc (data : List Byte) (n : Nat) : ∀ x ∈ syndromes (data ++ rsecc data n) n, x = 0 := by
  refine List.forall_mem_map.mpr fun j hj => evalHigh_append_rsecc data ?_
  exact (evalHigh_genpoly_eq_zero_iff n _).mpr ⟨j, List.mem_range.mp hj, rfl⟩

theorem rsecc_xor (n : Nat) {a b : List Byte} (hab : a.length = b.length) :
    rsecc (List.zipWith (· ^^^ ·) a b) n = List.zipWith (· ^^^ ·) (rsecc a n) (rsecc b n) := by
  have hzero : List.zipWith (· ^^^ ·) (List.replicate n (0 : Byte)) (List.replicate n 0) = List.replicate n 0 := by simp
  have hshift : List.zipWith (· ^^^ ·) a b ++ List.replicate n 0 =
      List.zipWith (· ^^^ ·) (a ++ List.replicate n 0) (b ++ List.replicate n 0) := by
    rw [List.zipWith_append hab, hzero]
  have hlen : (List.zipWith (· ^^^ ·) a b).length = a.length := by simp [hab]
  rw [rsecc, hshift, hlen, divide_xor _ _ (by simp [hab]) (.inr (genpoly_length_add_le a n)), rsecc, rsecc, hab]

/-- A leading 0 is one step of the division that changes nothing. -/
theorem rsecc_zero_cons (data : List Byte) (n : Nat) : rsecc (0 :: data) n = rsecc data n := by
  rw [rsecc, List.length_cons, List.cons_append, divide, divStep, if_pos rfl, rsecc]

theorem rsecc_nil (n : Nat) : rsecc [] n = List.replicate n 0 := rfl

/-- Settles O48: the division keeps the value at the generator's roots, and each of its steps is linear. -/
theorem checkCodewords : Obligations.CheckCodewords := fun n _ =>
  ⟨fun data => ⟨rsecc_length data n, syndromes_append_rsecc data n⟩, fun _ _ => rsecc_xor n,
    fun data => rsecc_zero_cons data n, rsecc_nil n, fun data => List.eq_nil_of_length_eq_zero (rsecc_length data 0)⟩

end Sys2Proof.Machine
end

section
/-! RSENC, RSSPLIT and RSILV (42_rs_encoder.md R152, R154 to R158): the blocks cut from the codewords, and the blocks read
column by column. -/

namespace Sys2Proof.Machine

/-! ### RSENC (R152) -/

theorem exec_rsenc {k n : BitVec 8} {s : State} (hhalt : s.halt = false) (hready : s.valid.getLsbD GFRDY = true)
    (hrange : k.toNat + n.toNat ≤ 255) :
    exec (.rsenc k n) s = .next (complete (markValid GENV
      { writeBlk k.toNat (rsecc (blkBytes s k.toNat) n.toNat) s with gen := genpoly n.toNat, res0 := n.setWidth 32 })) := by
  rw [exec_runs (i := .rsenc k n) hhalt (decide_eq_true hrange) hready, ruleOf, ruleRsenc, conclude]

/-- Settles O32: the rule writes BLK from `k` on, and there the check codewords only. -/
theorem rsencCompletes : Obligations.RsencCompletes := by
  intro k n s hhalt hready
  refine ⟨fun hrange => ?_, fun hout => exec_outOfRange hhalt (decide_eq_false (Nat.not_le.mpr hout))⟩
  refine ⟨_, exec_rsenc hhalt hready hrange, rfl, fun j hj => ?_, fun a ha => ?_⟩
  · have hlen : j < (rsecc (blkBytes s k.toNat) n.toNat).length := by rwa [rsecc_length]
    rw [List.getElem?_eq_getElem hlen, ← readByte_writeBytes_at s (blkBase + k.toNat) _ hlen]
    exact rfl
  · exact readByte_writeBytes_other s (rsecc (blkBytes s k.toNat) n.toNat) (by rwa [rsecc_length])

/-! ### Block splitting (R154 to R156) -/

theorem planData_eq_sum_blockLengths (groups : List (Nat × Nat)) : planData groups = (blockLengths groups).sum := by
  induction groups with
  | nil => rfl
  | cons g groups ih =>
    rw [planData, List.map_cons, List.sum_cons, ← planData, ih, blockLengths, blockLengths, List.flatMap_cons,
      List.sum_append_nat, List.sum_replicate, smul_eq_mul]

@[simp] theorem cutBlocks_length (ks : List Nat) (cw : List Byte) : (cutBlocks ks cw).length = ks.length := by
  induction ks generalizing cw with
  | nil => rfl
  | cons k ks ih => rw [cutBlocks, List.length_cons, ih, List.length_cons]

theorem cutBlocks_flatten {ks : List Nat} {cw : List Byte} (h : cw.length = ks.sum) : (cutBlocks ks cw).flatten = cw := by
  induction ks generalizing cw with
  | nil => exact (List.eq_nil_of_length_eq_zero h).symm
  | cons k ks ih =>
    have hrest : (cw.drop k).length = ks.sum := by rw [List.length_drop, h, List.sum_cons, Nat.add_sub_cancel_left]
    rw [cutBlocks, List.flatten_cons, ih hrest, List.take_append_drop]

theorem cutBlocks_lengths {ks : List Nat} {cw : List Byte} (h : cw.length = ks.sum) :
    (cutBlocks ks cw).map List.length = ks := by
  induction ks generalizing cw with
  | nil => rfl
  | cons k ks ih =>
    rw [List.sum_cons] at h
    have hrest : (cw.drop k).length = ks.sum := by rw [List.length_drop, h, Nat.add_sub_cancel_left]
    rw [cutBlocks, List.map_cons, ih hrest, List.length_take, h, Nat.min_eq_left (Nat.le_add_right k _)]

section
variable {s : State} (hhalt : s.halt = false) (hready : s.valid.getLsbD PACKED = true)
include hhalt hready

theorem exec_rssplit_of_sum_eq (h : planData (currentPlan s).groups = s.ndcw.toNat) :
    exec .rssplit s = .next (complete (splitState s)) := by
  rw [exec_runs (i := .rssplit) hhalt rfl hready, ruleOf, ruleRssplit_done h, conclude]

theorem exec_rssplit_of_sum_ne (h : planData (currentPlan s).groups ≠ s.ndcw.toNat) :
    exec .rssplit s = .next { (clearStages SPLIT s).withError 3 0x32000000 with halt := true } := by
  rw [exec_runs (i := .rssplit) hhalt rfl hready, ruleOf, ruleRssplit, if_pos h, conclude, raise, clearStages_halt, hhalt]
  exact rfl

end

/-- Settles O37: the blocks are cut one after the other, and their lengths add up where the plan fits. -/
theorem rssplitResult : Obligations.RssplitResult := by
  intro s hhalt
  refine ⟨fun hready => ⟨fun hsum => ?_, fun hsum => ?_⟩, fun hnot => exec_notReady hhalt rfl hnot⟩
  · have heq := (planData_eq_sum_blockLengths (currentPlan s).groups).trans hsum
    refine ⟨_, exec_rssplit_of_sum_eq hhalt hready heq, ?_, fun hdcw => ?_⟩
    · have hlen := cutBlocks_length (blockLengths (currentPlan s).groups) s.dcw
      exact congrArg (fun b => { complete (splitState s) with nblk := BitVec.ofNat 7 b }) hlen
    · have hcut := hdcw.trans hsum.symm
      exact ⟨cutBlocks_flatten hcut, cutBlocks_lengths hcut⟩
  · have hne := mt (planData_eq_sum_blockLengths (currentPlan s).groups).symm.trans hsum
    exact ⟨_, exec_rssplit_of_sum_ne hhalt hready hne, rfl⟩

/-! ### Interleaving (R157, R158) -/

/-- A block's elements in the columns `0 ≤ i < n` are the whole block where it has no more than `n`. -/
theorem range_flatMap_getElem? {b : List Byte} {n : Nat} (h : b.length ≤ n) :
    (List.range n).flatMap (fun i => b[i]?.toList) = b := by
  induction b generalizing n with
  | nil => simp
  | cons x b ih =>
    cases n with
    | zero => exact absurd h (Nat.not_succ_le_zero _)
    | succ n =>
      rw [List.range_succ_eq_map, List.flatMap_cons, List.flatMap_map]
      exact congrArg (x :: ·) (ih (Nat.le_of_succ_le_succ h))

theorem column_cons (b : List Byte) (blocks : List (List Byte)) (i : Nat) :
    column (b :: blocks) i = b[i]?.toList ++ column blocks i := by
  rw [column, List.filterMap_cons, column]
  cases b[i]? <;> rfl

/-- Enough columns hold every element of every block exactly once. -/
theorem flatMap_column_perm {blocks : List (List Byte)} {n : Nat} (h : ∀ b ∈ blocks, b.length ≤ n) :
    ((List.range n).flatMap (column blocks)).Perm blocks.flatten := by
  induction blocks with
  | nil =>
    have hnil : (List.range n).flatMap (column []) = [] := List.flatMap_eq_nil_iff.mpr fun _ _ => rfl
    rw [hnil, List.flatten_nil]
  | cons b blocks ih =>
    obtain ⟨hb, hblocks⟩ := List.forall_mem_cons.mp h
    have hcolumn : column (b :: blocks) = fun i => b[i]?.toList ++ column blocks i := funext (column_cons b blocks)
    rw [hcolumn, List.flatten_cons]
    refine (List.flatMap_append_perm _ _ _).symm.trans ?_
    rw [range_flatMap_getElem? hb]
    exact (ih hblocks).append_left b

theorem length_le_foldl_max {blocks : List (List Byte)} {b : List Byte} (h : b ∈ blocks) :
    b.length ≤ (blocks.map List.length).foldl max 0 := by
  rw [List.foldl_eq_foldr]
  exact List.le_max_of_le' 0 (List.mem_map_of_mem h) (Nat.le_refl _)

theorem columns_perm (blocks : List (List Byte)) : (columns blocks).Perm blocks.flatten :=
  flatMap_column_perm fun _ => length_le_foldl_max

theorem exec_rsilv {s : State} (hhalt : s.halt = false) (hready : s.valid.getLsbD SPLIT = true) :
    exec .rsilv s = .next (complete (interleavedState s)) := by
  rw [exec_runs (i := .rsilv) hhalt rfl hready, ruleOf, ruleRsilv_done, conclude]

/-- Settles O38: RSILV's rule always completes, and the columns of the blocks are a rearrangement of the blocks. -/
theorem rsilvCompletes : Obligations.RsilvCompletes := by
  intro s hhalt
  refine ⟨fun hready => ⟨_, exec_rsilv hhalt hready, rfl, ?_⟩, fun hnot => exec_notReady hhalt rfl hnot⟩
  exact (columns_perm _).append (columns_perm _)

end Sys2Proof.Machine
end

section
/-! RSSYN and RSCOR (43_rs_decoder.md R172, R175): what the two rules write, given the corrector's answer. -/

namespace Sys2Proof.Machine

section
variable {len n : BitVec 8} {s : State} (hhalt : s.halt = false) (hready : s.valid.getLsbD GFRDY = true)
  (hrange : n.toNat ≤ len.toNat)
include hhalt hready hrange

theorem exec_rssyn :
    exec (.rssyn len n) s = .next (complete (recordSyndromes (blkBytes s len.toNat) n.toNat s)) := by
  rw [exec_runs (i := .rssyn len n) hhalt (decide_eq_true hrange) hready, ruleOf, ruleRssyn, conclude]

theorem exec_rscor_of_some {w : List Byte} {e : Nat} (h : rscorrect (blkBytes s len.toNat) n.toNat = some (w, e)) :
    exec (.rscor len n) s = .next (complete
      { writeBlk 0 w (recordSyndromes (blkBytes s len.toNat) n.toNat s) with res1 := BitVec.ofNat 32 e }) := by
  rw [exec_runs (i := .rscor len n) hhalt (decide_eq_true hrange) hready, ruleOf, ruleRscor, h]
  rfl

theorem exec_rscor_of_none (h : rscorrect (blkBytes s len.toNat) n.toNat = none) :
    exec (.rscor len n) s = .next
      (State.withError { recordSyndromes (blkBytes s len.toNat) n.toNat s with res1 := 0xFFFFFFFF } 4
        (encode (.rscor len n))) := by
  rw [exec_runs (i := .rscor len n) hhalt (decide_eq_true hrange) hready, ruleOf, ruleRscor, h, conclude,
    raise_eq_withError rfl, errorCode]

end

/-- Settles O33: RSSYN's rule is `recordSyndromes`, which always completes. -/
theorem rssynCompletes : Obligations.RssynCompletes := by
  intro len n s hhalt hready
  refine ⟨fun hrange => ?_, fun hout => exec_outOfRange hhalt (decide_eq_false (Nat.not_le.mpr hout))⟩
  exact ⟨_, exec_rssyn hhalt hready hrange, rfl, rfl⟩

/-- Settles O34: the corrected block is as long as the received one, so RSCOR writes `BLK[0..N-1]` and no other byte. -/
theorem rscorResult : Obligations.RscorResult := by
  intro len n s hhalt hready
  refine ⟨fun hrange => ⟨fun w e h => ?_, fun h => ⟨_, exec_rscor_of_none hhalt hready hrange h, rfl⟩⟩,
    fun hout => exec_outOfRange hhalt (decide_eq_false (Nat.not_le.mpr hout))⟩
  have hlen : w.length = len.toNat := (rscorrect_length h).trans (readBytes_length _ _ _)
  refine ⟨_, exec_rscor_of_some hhalt hready hrange h, rfl, fun j hj => ?_, fun a ha => ?_⟩
  · have hj' : j < w.length := hlen.symm ▸ hj
    rw [List.getElem?_eq_getElem hj', ← readByte_writeBytes_at s blkBase w hj']
    exact rfl
  · exact readByte_writeBytes_other s w (hlen.symm ▸ ha)

end Sys2Proof.Machine
end

section
/-! The bytes as elements of a field and byte lists as its polynomials (41_gf256.md R130 to R135, 43_rs_decoder.md R171,
R176). -/

namespace Sys2Proof.Machine

open Polynomial

/-! ### The bytes as a field (R130, R135) -/

/-- `φ` embeds the bytes in the field `F`: XOR is its addition and `gfmul` its multiplication. -/
structure IsFieldMap {F : Type} [Field F] (φ : Byte → F) : Prop where
  injective : Function.Injective φ
  map_xor (a b : Byte) : φ (a ^^^ b) = φ a + φ b
  map_gfmul (a b : Byte) : φ (gfmul a b) = φ a * φ b

/-- The bytes with XOR and `gfmul` are a field themselves. -/
@[reducible] def byteField : Field Byte :=
  @Field.ofMinimalAxioms Byte ⟨(· ^^^ ·)⟩ ⟨gfmul⟩ ⟨id⟩ ⟨fun a => if a = 0 then 0 else gfInv a⟩ ⟨0⟩ ⟨1⟩
    BitVec.xor_assoc (fun _ => BitVec.zero_xor) (fun _ => BitVec.xor_self) gfmul_assoc gfmul_comm one_gfmul
    (fun a ha => (congrArg (gfmul a) (if_neg ha)).trans (gfmul_gfInv ha)) (if_pos rfl) gfmul_xor ⟨0, 1, by decide⟩

theorem exists_isFieldMap : ∃ (F : Type) (_ : Field F) (φ : Byte → F), IsFieldMap φ :=
  letI := byteField
  ⟨Byte, byteField, id, Function.injective_id, fun _ _ => rfl, fun _ _ => rfl⟩

section
variable {F : Type} [Field F] {φ : Byte → F} (hφ : IsFieldMap φ)
include hφ

namespace IsFieldMap

theorem map_zero : φ 0 = 0 := by simpa using hφ.map_xor 0 0

theorem map_eq_zero_iff {a : Byte} : φ a = 0 ↔ a = 0 := by rw [← hφ.map_zero, hφ.injective.eq_iff]

theorem map_one : φ 1 = 1 := by
  have hne : φ 1 ≠ 0 := fun h => absurd (hφ.map_eq_zero_iff.mp h) (by decide)
  have hsq : φ 1 * φ 1 = φ 1 := by rw [← hφ.map_gfmul, gfmul_one]
  exact mul_left_cancel₀ hne (hsq.trans (mul_one _).symm)

theorem charTwo : CharP F 2 := by
  refine CharTwo.of_one_ne_zero_of_two_eq_zero one_ne_zero ?_
  rw [← one_add_one_eq_two, ← hφ.map_one, ← hφ.map_xor, BitVec.xor_self]
  exact hφ.map_zero

theorem map_gfInv {a : Byte} (ha : a ≠ 0) : φ (gfInv a) = (φ a)⁻¹ := by
  refine eq_inv_of_mul_eq_one_right ?_
  rw [← hφ.map_gfmul, gfmul_gfInv ha, hφ.map_one]

theorem map_alphaPow (i : ℕ) : φ (alphaPow i) = φ (alphaPow 1) ^ i := by
  induction i with
  | zero => rw [alphaPow_zero, hφ.map_one, pow_zero]
  | succ i ih => rw [← gfmul_alphaPow, hφ.map_gfmul, ih, pow_succ]

theorem map_foldl_xor (f : ℕ → Byte) (v : Byte) (k : ℕ) :
    φ ((List.range k).foldl (fun v i => v ^^^ f i) v) = φ v + ∑ i ∈ Finset.range k, φ (f i) := by
  induction k with
  | zero => simp
  | succ k ih => rw [List.range_succ, List.foldl_append, List.foldl_cons, List.foldl_nil, hφ.map_xor, ih,
      Finset.sum_range_succ, add_assoc]

end IsFieldMap

end

/-! ### Byte lists as polynomials, the coefficient of the lowest power first (R176) -/

/-- The polynomial with the coefficients `p`, lowest power first. -/
noncomputable def listPoly {F : Type} [Field F] (φ : Byte → F) : List Byte → F[X]
  | [] => 0
  | c :: p => C (φ c) + X * listPoly φ p

section
variable {F : Type} [Field F] {φ : Byte → F} (hφ : IsFieldMap φ)
include hφ

theorem coeff_listPoly (p : List Byte) (k : ℕ) : (listPoly φ p).coeff k = φ (p.getD k 0) := by
  induction p generalizing k with
  | nil => exact hφ.map_zero.symm
  | cons c p ih =>
    cases k with
    | zero => simp [listPoly]
    | succ k => rw [listPoly, coeff_add, coeff_C_succ, zero_add, coeff_X_mul, ih, List.getD_cons_succ]

theorem listPoly_eq_iff {p : List Byte} {q : F[X]} : listPoly φ p = q ↔ ∀ k, φ (p.getD k 0) = q.coeff k := by
  simp only [Polynomial.ext_iff, coeff_listPoly hφ]

theorem map_evalLow (x : Byte) (p : List Byte) : φ (evalLow x p) = (listPoly φ p).eval (φ x) := by
  induction p with
  | nil => exact hφ.map_zero.trans eval_zero.symm
  | cons c p ih =>
    rw [evalLow, List.foldr_cons, ← evalLow, hφ.map_xor, hφ.map_gfmul, ih, listPoly, eval_add, eval_C, eval_mul, eval_X]
    ring

theorem listPoly_xorLists (p q : List Byte) : listPoly φ (xorLists p q) = listPoly φ p + listPoly φ q := by
  induction p, q using xorLists.induct with
  | case1 q => rw [xorLists, listPoly, zero_add]
  | case2 p hp => rw [xorLists_nil, listPoly, add_zero]
  | case3 a p b q ih =>
    rw [xorLists, listPoly, listPoly, listPoly, ih, hφ.map_xor, C_add]
    ring

theorem listPoly_map_gfmul (a : Byte) (p : List Byte) : listPoly φ (p.map (gfmul a)) = C (φ a) * listPoly φ p := by
  induction p with
  | nil => rw [List.map_nil, listPoly, mul_zero]
  | cons c p ih =>
    rw [List.map_cons, listPoly, listPoly, ih, hφ.map_gfmul, C_mul]
    ring

theorem listPoly_replicate_append (m : ℕ) (p : List Byte) :
    listPoly φ (List.replicate m 0 ++ p) = X ^ m * listPoly φ p := by
  induction m with
  | zero => rw [List.replicate_zero, List.nil_append, pow_zero, one_mul]
  | succ m ih => rw [List.replicate_succ, List.cons_append, listPoly, hφ.map_zero, C_0, zero_add, ih, pow_succ', mul_assoc]

end

end Sys2Proof.Machine
end

section
/-! Sums of powers over a field, as the syndromes of a block are: what a polynomial makes of them, the error locator and the
error evaluator (43_rs_decoder.md R173, R176). -/

namespace Sys2Proof.Machine

open Polynomial Finset

/-! ### Sums of powers -/

section
variable {F : Type} [Field F]

/-- `∑ y_p · x_p^k` over the positions in `P`: the `k`-th syndrome of an error with locators `x` and values `y`. -/
def powerSum (P : Finset ℕ) (x y : ℕ → F) (k : ℕ) : F := ∑ p ∈ P, y p * x p ^ k

/-- The coefficient of power `k` of the product of `c` and the power series with the coefficients `S`. -/
noncomputable def conv (S : ℕ → F) (c : F[X]) (k : ℕ) : F := PowerSeries.coeff k ((c : PowerSeries F) * PowerSeries.mk S)

theorem conv_add (S : ℕ → F) (c d : F[X]) (k : ℕ) : conv S (c + d) k = conv S c k + conv S d k := by
  rw [conv, Polynomial.coe_add, add_mul, map_add, conv, conv]

theorem conv_C_mul (S : ℕ → F) (a : F) (d : F[X]) (k : ℕ) : conv S (C a * d) k = a * conv S d k := by
  rw [conv, Polynomial.coe_mul, coe_C, mul_assoc, PowerSeries.coeff_C_mul, conv]

theorem conv_X_mul (S : ℕ → F) (d : F[X]) (k : ℕ) : conv S (X * d) (k + 1) = conv S d k := by
  rw [conv, Polynomial.coe_mul, coe_X, mul_assoc, PowerSeries.coeff_succ_X_mul, conv]

theorem conv_eq_sum (S : ℕ → F) (c : F[X]) (k : ℕ) :
    conv S c k = ∑ j ∈ range (k + 1), c.coeff j * S (k - j) := by
  rw [conv, PowerSeries.coeff_mul, Nat.sum_antidiagonal_eq_sum_range_succ_mk]
  simp only [coeff_coe, PowerSeries.coeff_mk]

variable {P : Finset ℕ} {x y : ℕ → F}

/-- As many vanishing sums of powers as there are locators make every value 0: evaluate the sums at the polynomial that is 1
at one locator and 0 at the others. -/
theorem eq_zero_of_powerSum_eq_zero {m : ℕ} (hx : Set.InjOn x P) (hm : P.card ≤ m) (h : ∀ k < m, powerSum P x y k = 0) :
    ∀ p ∈ P, y p = 0 := by
  intro p hp
  have hdeg : (Lagrange.basis P x p).natDegree < m := by
    have hpos : 0 < P.card := card_pos.mpr ⟨p, hp⟩
    rw [natDegree_eq_of_degree_eq_some (Lagrange.degree_basis hx hp)]
    omega
  calc y p
    _ = ∑ q ∈ P, y q * (Lagrange.basis P x p).eval (x q) := by
      rw [sum_eq_single_of_mem p hp fun q hq hne => by rw [Lagrange.eval_basis_of_ne hne.symm hq, mul_zero],
        Lagrange.eval_basis_self hx hp, mul_one]
    _ = ∑ k ∈ range m, (Lagrange.basis P x p).coeff k * powerSum P x y k := by
      simp only [eval_eq_sum_range' hdeg, powerSum, mul_sum]
      rw [sum_comm]
      exact sum_congr rfl fun k _ => sum_congr rfl fun q _ => mul_left_comm _ _ _
    _ = 0 := sum_eq_zero fun k hk => by rw [h k (mem_range.mp hk), mul_zero]

/-- From its degree on, the convolution with `c` multiplies every value by `c` at the inverse of its locator. -/
theorem conv_powerSum (hx0 : ∀ p ∈ P, x p ≠ 0) {c : F[X]} {k : ℕ} (hc : c.natDegree ≤ k) :
    conv (powerSum P x y) c k = powerSum P x (fun p => y p * c.eval (x p)⁻¹) k := by
  simp only [conv_eq_sum, powerSum, mul_sum]
  rw [sum_comm]
  refine sum_congr rfl fun p hp => ?_
  rw [eval_eq_sum_range' (Nat.lt_succ_of_le hc), mul_sum, sum_mul]
  refine sum_congr rfl fun j hj => ?_
  have hpow : x p ^ k = x p ^ (k - j) * x p ^ j := by
    rw [← pow_add, Nat.sub_add_cancel (Nat.lt_succ_iff.mp (mem_range.mp hj))]
  have hinv : (x p)⁻¹ ^ j * x p ^ j = 1 := by rw [← mul_pow, inv_mul_cancel₀ (hx0 p hp), one_pow]
  rw [hpow]
  linear_combination (-(c.coeff j * y p * x p ^ (k - j))) * hinv

/-- As many vanishing coefficients as there are locators make `c` vanish at the inverse of each with a non-zero value. -/
theorem mul_eval_eq_zero_of_conv_eq_zero (hx : Set.InjOn x P) (hx0 : ∀ p ∈ P, x p ≠ 0) {c : F[X]} {l i : ℕ}
    (hc : c.natDegree ≤ l) (hi : l + P.card ≤ i) (h : ∀ k, l ≤ k → k < i → conv (powerSum P x y) c k = 0) :
    ∀ p ∈ P, y p * c.eval (x p)⁻¹ = 0 := by
  intro p hp
  have hzero := eq_zero_of_powerSum_eq_zero (y := fun p => y p * c.eval (x p)⁻¹ * x p ^ l) hx le_rfl
    (fun k hk => ?_) p hp
  · exact (mul_eq_zero.mp hzero).resolve_right (pow_ne_zero _ (hx0 p hp))
  · have hlk := h (l + k) (Nat.le_add_right l k) (by omega)
    rw [conv_powerSum hx0 (hc.trans (Nat.le_add_right l k))] at hlk
    rw [← hlk]
    exact sum_congr rfl fun q _ => by rw [pow_add, mul_assoc]

/-! ### The error locator and the error evaluator -/

/-- `1 - a·x`, the factor whose root is the inverse of `a`. -/
noncomputable def locatorFactor (a : F) : F[X] := 1 - C a * X

/-- The polynomial with constant coefficient 1 whose roots are the inverses of the locators. -/
noncomputable def errorLocator (P : Finset ℕ) (x : ℕ → F) : F[X] := ∏ p ∈ P, locatorFactor (x p)

/-- The error evaluator `∑ y_p · ∏_{q ≠ p} (1 - x_q·x)`. -/
noncomputable def errorEvaluator (P : Finset ℕ) (x y : ℕ → F) : F[X] :=
  ∑ p ∈ P, C (y p) * errorLocator (P.erase p) x

theorem eval_locatorFactor (a b : F) : (locatorFactor a).eval b = 1 - a * b := by simp [locatorFactor]

theorem eval_errorLocator (P : Finset ℕ) (x : ℕ → F) (b : F) : (errorLocator P x).eval b = ∏ p ∈ P, (1 - x p * b) := by
  simp only [errorLocator, eval_prod, eval_locatorFactor]

theorem coeff_zero_errorLocator (P : Finset ℕ) (x : ℕ → F) : (errorLocator P x).coeff 0 = 1 := by
  simp [coeff_zero_eq_eval_zero, eval_errorLocator]

theorem natDegree_errorLocator (hx0 : ∀ p ∈ P, x p ≠ 0) : (errorLocator P x).natDegree = P.card := by
  have hfactor : ∀ p ∈ P, (locatorFactor (x p)).natDegree = 1 := fun p hp => by
    have hlin : locatorFactor (x p) = C (-x p) * X + C 1 := by rw [locatorFactor, C_neg, C_1]; ring
    rw [hlin, natDegree_linear (neg_ne_zero.mpr (hx0 p hp))]
  have hne : ∀ p ∈ P, locatorFactor (x p) ≠ 0 := fun p hp h0 => by
    simpa [h0] using hfactor p hp
  rw [errorLocator, natDegree_prod _ _ hne, sum_congr rfl hfactor, card_eq_sum_ones]

theorem errorLocator_eq_mul_erase {p : ℕ} (hp : p ∈ P) :
    errorLocator P x = locatorFactor (x p) * errorLocator (P.erase p) x := by
  rw [errorLocator, errorLocator, mul_prod_erase P (fun q => locatorFactor (x q)) hp]

/-- The inverse of `b` is a root exactly if `b` is one of the locators. -/
theorem eval_errorLocator_inv_eq_zero_iff {b : F} (hb : b ≠ 0) :
    (errorLocator P x).eval b⁻¹ = 0 ↔ ∃ p ∈ P, x p = b := by
  rw [eval_errorLocator, prod_eq_zero_iff]
  simp only [sub_eq_zero, eq_comm (a := (1 : F)), ← div_eq_mul_inv, div_eq_one_iff_eq hb]

/-- The locator is determined by its roots, its degree and its constant coefficient. -/
theorem eq_errorLocator (hx : Set.InjOn x P) (hx0 : ∀ p ∈ P, x p ≠ 0) {c : F[X]} (hc : c.natDegree ≤ P.card)
    (hc0 : c.coeff 0 = 1) (hroot : ∀ p ∈ P, c.eval (x p)⁻¹ = 0) : c = errorLocator P x := by
  classical
  have hinv : Set.InjOn (fun p => (x p)⁻¹) P := fun p hp q hq h => hx hp hq (inv_injective h)
  have hzero : (0 : F) ∉ P.image fun p => (x p)⁻¹ := fun h => by
    obtain ⟨p, hp, h0⟩ := mem_image.mp h
    exact hx0 p hp (inv_eq_zero.mp h0)
  have hcard : (insert 0 (P.image fun p => (x p)⁻¹)).card = P.card + 1 := by
    rw [card_insert_of_notMem hzero, card_image_of_injOn hinv]
  have hlt : ∀ {q : F[X]}, q.natDegree ≤ P.card → q.degree < (insert 0 (P.image fun p => (x p)⁻¹)).card := fun hq =>
    (degree_le_of_natDegree_le hq).trans_lt (by rw [hcard]; exact_mod_cast Nat.lt_succ_self _)
  refine eq_of_degrees_lt_of_eval_finset_eq _ (hlt hc) (hlt (natDegree_errorLocator hx0).le) fun b hb => ?_
  rcases mem_insert.mp hb with rfl | hb
  · rw [← coeff_zero_eq_eval_zero, ← coeff_zero_eq_eval_zero, hc0, coeff_zero_errorLocator]
  · obtain ⟨p, hp, rfl⟩ := mem_image.mp hb
    rw [hroot p hp, (eval_errorLocator_inv_eq_zero_iff (hx0 p hp)).mpr ⟨p, hp, rfl⟩]

/-- The geometric series is the inverse of its factor. -/
theorem locatorFactor_mul_geometric (a : F) : (locatorFactor a : PowerSeries F) * PowerSeries.mk (a ^ ·) = 1 := by
  have hcoe : (locatorFactor a : PowerSeries F) = 1 - PowerSeries.C a * PowerSeries.X := by simp [locatorFactor]
  ext k
  rw [hcoe, sub_mul, one_mul, mul_assoc, map_sub, PowerSeries.coeff_C_mul, PowerSeries.coeff_mk, PowerSeries.coeff_one]
  cases k with
  | zero => simp
  | succ k => rw [PowerSeries.coeff_succ_X_mul, PowerSeries.coeff_mk, pow_succ', sub_self, if_neg k.succ_ne_zero]

/-- Convolving with the locator leaves the evaluator: each geometric series is the inverse of its factor. -/
theorem conv_errorLocator (k : ℕ) :
    conv (powerSum P x y) (errorLocator P x) k = (errorEvaluator P x y).coeff k := by
  have hseries : PowerSeries.mk (powerSum P x y) = ∑ p ∈ P, PowerSeries.C (y p) * PowerSeries.mk (x p ^ ·) := by
    ext k
    simp [powerSum]
  have hproduct : (errorLocator P x : PowerSeries F) * PowerSeries.mk (powerSum P x y) = errorEvaluator P x y := by
    rw [hseries, mul_sum, errorEvaluator, ← coeToPowerSeries.ringHom_apply (φ := ∑ p ∈ P, _), map_sum]
    refine sum_congr rfl fun p hp => ?_
    rw [errorLocator_eq_mul_erase hp, coeToPowerSeries.ringHom_apply, Polynomial.coe_mul, Polynomial.coe_mul, coe_C]
    linear_combination
      PowerSeries.C (y p) * (errorLocator (P.erase p) x : PowerSeries F) * locatorFactor_mul_geometric (x p)
  rw [conv, hproduct, coeff_coe]

theorem natDegree_errorEvaluator_le (hx0 : ∀ p ∈ P, x p ≠ 0) : (errorEvaluator P x y).natDegree ≤ P.card - 1 := by
  refine natDegree_sum_le_of_forall_le _ _ fun p hp => (natDegree_C_mul_le _ _).trans ?_
  rw [natDegree_errorLocator fun q hq => hx0 q (mem_of_mem_erase hq), card_erase_of_mem hp]

/-- Only its own term is left at the inverse of a locator. -/
theorem eval_errorEvaluator (hx0 : ∀ p ∈ P, x p ≠ 0) {p : ℕ} (hp : p ∈ P) :
    (errorEvaluator P x y).eval (x p)⁻¹ = y p * (errorLocator (P.erase p) x).eval (x p)⁻¹ := by
  rw [errorEvaluator, eval_finsetSum, sum_eq_single_of_mem p hp fun q hq hne => ?_, eval_mul, eval_C]
  rw [eval_mul, (eval_errorLocator_inv_eq_zero_iff (hx0 p hp)).mpr ⟨p, mem_erase.mpr ⟨hne.symm, hp⟩, rfl⟩, mul_zero]

theorem eval_derivative_errorLocator (hx0 : ∀ p ∈ P, x p ≠ 0) {p : ℕ} (hp : p ∈ P) :
    (errorLocator P x).derivative.eval (x p)⁻¹ = -(x p * (errorLocator (P.erase p) x).eval (x p)⁻¹) := by
  rw [errorLocator_eq_mul_erase hp, derivative_mul, eval_add, eval_mul, eval_mul, eval_locatorFactor,
    mul_inv_cancel₀ (hx0 p hp), sub_self, zero_mul, add_zero]
  simp [locatorFactor]

theorem eval_errorLocator_erase_ne_zero (hx : Set.InjOn x P) (hx0 : ∀ p ∈ P, x p ≠ 0) {p : ℕ} (hp : p ∈ P) :
    (errorLocator (P.erase p) x).eval (x p)⁻¹ ≠ 0 := by
  rw [Ne, eval_errorLocator_inv_eq_zero_iff (hx0 p hp)]
  rintro ⟨q, hq, h⟩
  exact (mem_erase.mp hq).1 (hx (mem_of_mem_erase hq) hp h)

end

end Sys2Proof.Machine
end

section
/-! The error-locator loop (43_rs_decoder.md R176, part 1): a register that generates the syndromes and the register before
the last change of length, which corrects it. -/

namespace Sys2Proof.Machine

open Polynomial

/-! ### The two registers after a round -/

section
variable {F : Type} [Field F]

/-- After `i` rounds `c`, of length `l`, generates `S` up to `i`; `d` fails first at `i`, by `b`, and it is short enough to
be added to `c` where `c` fails. -/
structure ShiftRegister (S : ℕ → F) (i : ℕ) (c d : F[X]) (l : ℕ) (b : F) : Prop where
  length_le : l ≤ i
  coeff_zero : c.coeff 0 = 1
  natDegree_le : c.natDegree ≤ l
  conv_eq_zero (k : ℕ) : l ≤ k → k < i → conv S c k = 0
  corrector_coeff_zero : d.coeff 0 = 0
  corrector_natDegree_le : d.natDegree ≤ i + 1 - l
  corrector_conv_eq_zero (k : ℕ) : i + 1 - l ≤ k → k < i → conv S d k = 0
  corrector_conv : 0 < l → conv S d i = b
  corrector_ne_zero : b ≠ 0

theorem shiftRegister_one (S : ℕ → F) : ShiftRegister S 0 1 X 0 1 where
  length_le := le_rfl
  coeff_zero := coeff_one_zero
  natDegree_le := natDegree_one.le
  conv_eq_zero _ _ h := absurd h (Nat.not_lt_zero _)
  corrector_coeff_zero := coeff_X_zero
  corrector_natDegree_le := natDegree_X_le
  corrector_conv_eq_zero _ _ h := absurd h (Nat.not_lt_zero _)
  corrector_conv h := absurd h (Nat.lt_irrefl 0)
  corrector_ne_zero := one_ne_zero

namespace ShiftRegister

variable {S : ℕ → F} {i l : ℕ} {c d : F[X]} {b : F} (h : ShiftRegister S i c d l b)
include h

/-- A register that keeps its length keeps its corrector, one power higher. -/
theorem keep_length {c' : F[X]} (h0 : c'.coeff 0 = 1) (hdeg : c'.natDegree ≤ l)
    (hconv : ∀ k, l ≤ k → k < i + 1 → conv S c' k = 0) : ShiftRegister S (i + 1) c' (X * d) l b where
  length_le := h.length_le.trans (Nat.le_succ i)
  coeff_zero := h0
  natDegree_le := hdeg
  conv_eq_zero := hconv
  corrector_coeff_zero := coeff_X_mul_zero d
  corrector_natDegree_le := by
    have hle := h.length_le
    exact (natDegree_mul_le_of_le natDegree_X_le h.corrector_natDegree_le).trans (by omega)
  corrector_conv_eq_zero k hk hki := by
    have hle := h.length_le
    obtain ⟨k, rfl⟩ : ∃ m, k = m + 1 := ⟨k - 1, by omega⟩
    rw [conv_X_mul, h.corrector_conv_eq_zero k (by omega) (by omega)]
  corrector_conv hpos := by rw [conv_X_mul, h.corrector_conv hpos]
  corrector_ne_zero := h.corrector_ne_zero

theorem of_discrepancy_eq_zero (hzero : conv S c i = 0) : ShiftRegister S (i + 1) c (X * d) l b := by
  refine h.keep_length h.coeff_zero h.natDegree_le fun k hk hki => ?_
  rcases Nat.lt_succ_iff_lt_or_eq.mp hki with hlt | rfl
  · exact h.conv_eq_zero k hk hlt
  · exact hzero

/-- The multiple of the corrector that cancels the discrepancy changes nothing before it. -/
theorem conv_corrected {e : F} (he : conv S c i + e * b = 0) {k : ℕ} (hl : l ≤ k) (hk : i + 1 - l ≤ k) (hki : k < i + 1) :
    conv S (c + C e * d) k = 0 := by
  rw [conv_add, conv_C_mul]
  rcases Nat.lt_succ_iff_lt_or_eq.mp hki with hlt | rfl
  · rw [h.conv_eq_zero k hl hlt, h.corrector_conv_eq_zero k hk hlt, mul_zero, add_zero]
  · rw [h.corrector_conv (by omega), he]

theorem corrected_coeff_zero (e : F) : (c + C e * d).coeff 0 = 1 := by
  rw [coeff_add, coeff_C_mul, h.corrector_coeff_zero, mul_zero, add_zero, h.coeff_zero]

theorem corrected_natDegree_le (e : F) : (c + C e * d).natDegree ≤ max l (i + 1 - l) :=
  (natDegree_add_le _ _).trans
    (max_le_max h.natDegree_le ((natDegree_C_mul_le e d).trans h.corrector_natDegree_le))

theorem of_short {e : F} (he : conv S c i + e * b = 0) (hl : i < 2 * l) :
    ShiftRegister S (i + 1) (c + C e * d) (X * d) l b :=
  h.keep_length (h.corrected_coeff_zero e) ((h.corrected_natDegree_le e).trans (by omega))
    fun k hk hki => h.conv_corrected he hk (by omega) hki

/-- A register that has to grow is the next corrector. -/
theorem of_long {e : F} (he : conv S c i + e * b = 0) (hne : conv S c i ≠ 0) (hl : 2 * l ≤ i) :
    ShiftRegister S (i + 1) (c + C e * d) (X * c) (i + 1 - l) (conv S c i) where
  length_le := Nat.sub_le _ _
  coeff_zero := h.corrected_coeff_zero e
  natDegree_le := (h.corrected_natDegree_le e).trans (by omega)
  conv_eq_zero k hk hki := h.conv_corrected he (by omega) hk hki
  corrector_coeff_zero := coeff_X_mul_zero c
  corrector_natDegree_le := (natDegree_mul_le_of_le natDegree_X_le h.natDegree_le).trans (by omega)
  corrector_conv_eq_zero k hk hki := by
    obtain ⟨k, rfl⟩ : ∃ m, k = m + 1 := ⟨k - 1, by omega⟩
    rw [conv_X_mul, h.conv_eq_zero k (by omega) (by omega)]
  corrector_conv _ := conv_X_mul S c i
  corrector_ne_zero := hne

end ShiftRegister

variable {P : Finset ℕ} {x y : ℕ → F} {i l : ℕ} {c d : F[X]} {b : F}

/-- A register that fails is not much shorter than the number of locators (Massey's bound). -/
theorem ShiftRegister.le_add_card (h : ShiftRegister (powerSum P x y) i c d l b) (hx : Set.InjOn x P)
    (hx0 : ∀ p ∈ P, x p ≠ 0) (hne : conv (powerSum P x y) c i ≠ 0) : i + 1 - l ≤ P.card := by
  by_contra hlt
  have hzero := mul_eval_eq_zero_of_conv_eq_zero hx hx0 h.natDegree_le (by omega) h.conv_eq_zero
  rw [conv_powerSum hx0 (h.natDegree_le.trans h.length_le)] at hne
  exact hne (Finset.sum_eq_zero fun p hp => mul_eq_zero_of_left (hzero p hp) _)

/-- Once there are two sums of powers for each locator, the register is the error locator. -/
theorem ShiftRegister.eq_errorLocator (h : ShiftRegister (powerSum P x y) i c d l b) (hx : Set.InjOn x P)
    (hx0 : ∀ p ∈ P, x p ≠ 0) (hy : ∀ p ∈ P, y p ≠ 0) (hl : l ≤ P.card) (hi : 2 * P.card ≤ i) :
    c = errorLocator P x ∧ l = P.card := by
  have hroot := mul_eval_eq_zero_of_conv_eq_zero hx hx0 h.natDegree_le (by omega) h.conv_eq_zero
  have hc : c = errorLocator P x := Machine.eq_errorLocator hx hx0 (h.natDegree_le.trans hl) h.coeff_zero fun p hp =>
    (mul_eq_zero.mp (hroot p hp)).resolve_left (hy p hp)
  refine ⟨hc, le_antisymm hl ?_⟩
  rw [← natDegree_errorLocator hx0, ← hc]
  exact h.natDegree_le

end

/-! ### The loop -/

section
variable {F : Type} [Field F] {φ : Byte → F} (hφ : IsFieldMap φ) {S : ℕ → F} {syn : List Byte} {st : Locator} {i : ℕ}

/-- The registers of the loop, as polynomials, after `i` rounds: R176's `B` shifted by `m` is the corrector. -/
def Locator.Holds (φ : Byte → F) (S : ℕ → F) (i : ℕ) (st : Locator) : Prop :=
  ShiftRegister S i (listPoly φ st.c) (X ^ st.m * listPoly φ st.b) st.l (φ st.d)

include hφ

theorem map_discrepancy (hst : st.Holds φ S i) (hS : ∀ k ≤ i, φ (syn.getD k 0) = S k) :
    φ (discrepancy syn st i) = conv S (listPoly φ st.c) i := by
  have hsum : conv S (listPoly φ st.c) i = ∑ j ∈ Finset.range (st.l + 1), (listPoly φ st.c).coeff j * S (i - j) := by
    rw [conv_eq_sum]
    refine Finset.eventually_constant_sum (fun j hj => ?_) (Nat.succ_le_succ hst.length_le)
    rw [coeff_eq_zero_of_natDegree_lt (hst.natDegree_le.trans_lt hj), zero_mul]
  rw [hsum, Finset.sum_range_succ', hst.coeff_zero, one_mul, discrepancy, hφ.map_foldl_xor, hS i le_rfl, add_comm]
  refine congrArg (· + S i) (Finset.sum_congr rfl fun j _ => ?_)
  rw [hφ.map_gfmul, hS _ (Nat.sub_le _ _), coeff_listPoly hφ]

theorem listPoly_corrected (coef : Byte) :
    listPoly φ (xorLists st.c (List.replicate st.m 0 ++ st.b.map (gfmul coef))) =
      listPoly φ st.c + C (φ coef) * (X ^ st.m * listPoly φ st.b) := by
  rw [listPoly_xorLists hφ, listPoly_replicate_append hφ, listPoly_map_gfmul hφ, mul_left_comm]

/-- A round keeps the registers, and the length below the number of locators. -/
theorem locatorStep_holds {P : Finset ℕ} {x y : ℕ → F} (hx : Set.InjOn x P) (hx0 : ∀ p ∈ P, x p ≠ 0)
    (hst : st.Holds φ (powerSum P x y) i) (hl : st.l ≤ P.card) (hS : ∀ k ≤ i, φ (syn.getD k 0) = powerSum P x y k) :
    (locatorStep syn st i).Holds φ (powerSum P x y) (i + 1) ∧ (locatorStep syn st i).l ≤ P.card := by
  have hd := map_discrepancy hφ hst hS
  have hshift : X ^ (st.m + 1) * listPoly φ st.b = X * (X ^ st.m * listPoly φ st.b) := by rw [pow_succ', mul_assoc]
  unfold locatorStep
  by_cases hzero : discrepancy syn st i = 0
  · rw [if_pos hzero]
    rw [hzero, hφ.map_zero] at hd
    exact ⟨by simpa only [Locator.Holds, hshift] using hst.of_discrepancy_eq_zero hd.symm, hl⟩
  have hne : conv (powerSum P x y) (listPoly φ st.c) i ≠ 0 := hd ▸ hφ.map_eq_zero_iff.not.mpr hzero
  have hst0 : st.d ≠ 0 := hφ.map_eq_zero_iff.not.mp hst.corrector_ne_zero
  have he : conv (powerSum P x y) (listPoly φ st.c) i + φ (gfmul (discrepancy syn st i) (gfInv st.d)) * φ st.d = 0 := by
    have := hφ.charTwo
    rw [hφ.map_gfmul, hφ.map_gfInv hst0, inv_mul_cancel_right₀ hst.corrector_ne_zero, hd, CharTwo.add_self_eq_zero]
  rw [if_neg hzero]
  by_cases hlong : 2 * st.l ≤ i
  · rw [if_pos hlong]
    refine ⟨?_, hst.le_add_card hx hx0 hne⟩
    simpa only [Locator.Holds, listPoly_corrected hφ, pow_one, hd] using hst.of_long he hne hlong
  · rw [if_neg hlong]
    refine ⟨?_, hl⟩
    simpa only [Locator.Holds, listPoly_corrected hφ, hshift] using hst.of_short he (Nat.not_le.mp hlong)

end

end Sys2Proof.Machine
end

section
/-! The locator, the evaluator and the derivative as polynomials (43_rs_decoder.md R176). -/

namespace Sys2Proof.Machine

open Polynomial

/-! ### Lists without their trailing zeros -/

theorem stripZeros_append_zero (p : List Byte) : stripZeros (p ++ [0]) = stripZeros p := by
  simp [stripZeros]

theorem stripZeros_append_of_ne {c : Byte} (hc : c ≠ 0) (p : List Byte) : stripZeros (p ++ [c]) = p ++ [c] := by
  have hc' : c ≠ 0#8 := hc
  simp [stripZeros, hc']

section
variable {F : Type} [Field F] {φ : Byte → F} (hφ : IsFieldMap φ)
include hφ

theorem listPoly_append_zero (p : List Byte) : listPoly φ (p ++ [0]) = listPoly φ p := by
  induction p with
  | nil => simp only [List.nil_append, listPoly, mul_zero, add_zero, hφ.map_zero, C_0]
  | cons c p ih => rw [List.cons_append, listPoly, ih, listPoly]

theorem listPoly_stripZeros (p : List Byte) : listPoly φ (stripZeros p) = listPoly φ p := by
  induction p using List.reverseRecOn with
  | nil => rfl
  | append_singleton p c ih =>
    by_cases hc : c = 0
    · rw [hc, stripZeros_append_zero, ih, listPoly_append_zero hφ]
    · rw [stripZeros_append_of_ne hc]

theorem stripZeros_length (p : List Byte) (h : listPoly φ p ≠ 0) :
    (stripZeros p).length = (listPoly φ p).natDegree + 1 := by
  induction p using List.reverseRecOn with
  | nil => exact (h rfl).elim
  | append_singleton p c ih =>
    by_cases hc : c = 0
    · rw [hc, listPoly_append_zero hφ] at h ⊢
      rw [stripZeros_append_zero, ih h]
    · have hlast : (listPoly φ (p ++ [c])).coeff p.length ≠ 0 := by
        simpa [coeff_listPoly hφ, hφ.map_eq_zero_iff] using hc
      have hdeg : (listPoly φ (p ++ [c])).natDegree = p.length := by
        refine natDegree_eq_of_le_of_coeff_ne_zero (natDegree_le_iff_coeff_eq_zero.mpr fun k hk => ?_) hlast
        rw [coeff_listPoly hφ, List.getD_eq_default _ _ (by simpa using hk), hφ.map_zero]
      rw [stripZeros_append_of_ne hc, hdeg, List.length_append, List.length_singleton]

theorem listPoly_map_range (f : ℕ → Byte) {n : ℕ} {q : F[X]} (h : ∀ k < n, φ (f k) = q.coeff k)
    (hq : ∀ k, n ≤ k → q.coeff k = 0) : listPoly φ ((List.range n).map f) = q := by
  refine (listPoly_eq_iff hφ).mpr fun k => ?_
  by_cases hk : k < n
  · simpa [hk] using h k hk
  · rw [List.getD_eq_default _ _ (by simpa using hk), hφ.map_zero, hq k (Nat.not_lt.mp hk)]

/-- Twice an odd coefficient is 0. -/
theorem listPoly_derivative (c : List Byte) : listPoly φ (derivative c) = Polynomial.derivative (listPoly φ c) := by
  have := hφ.charTwo
  refine listPoly_map_range hφ _ (fun k _ => ?_) fun k hk => ?_
  · rw [coeff_derivative, coeff_listPoly hφ, ← Nat.cast_succ, CharTwo.natCast_eq_ite]
    by_cases hk : k % 2 = 0
    · rw [if_pos hk, if_neg (by rw [Nat.even_iff]; omega), mul_one]
    · rw [if_neg hk, if_pos (by rw [Nat.even_iff]; omega), mul_zero, hφ.map_zero]
  · rw [coeff_derivative, coeff_listPoly hφ, List.getD_eq_default _ _ (by omega), hφ.map_zero, zero_mul]

end

/-! ### The loop -/

/-- The registers after `i` rounds (R176, part 1). -/
def locatorLoop (syn : List Byte) (i : ℕ) : Locator :=
  (List.range i).foldl (locatorStep syn) { c := [1], b := [1], l := 0, m := 1, d := 1 }

theorem locatorLoop_succ (syn : List Byte) (i : ℕ) : locatorLoop syn (i + 1) = locatorStep syn (locatorLoop syn i) i := by
  rw [locatorLoop, List.range_succ, List.foldl_append, List.foldl_cons, List.foldl_nil, ← locatorLoop]

theorem locator_eq_loop (syn : List Byte) (n : ℕ) :
    locator syn n = (stripZeros (locatorLoop syn n).c, (locatorLoop syn n).l) := rfl

section
variable {F : Type} [Field F] {φ : Byte → F} (hφ : IsFieldMap φ)
include hφ

theorem locatorLoop_zero_holds (syn : List Byte) (S : ℕ → F) : (locatorLoop syn 0).Holds φ S 0 := by
  have hone : listPoly φ [1] = 1 := by simp only [listPoly, mul_zero, add_zero, hφ.map_one, C_1]
  have hd : φ 1 = 1 := hφ.map_one
  rw [Locator.Holds, locatorLoop, List.range_zero, List.foldl_nil, hone, hd, pow_one, mul_one]
  exact shiftRegister_one S

variable {P : Finset ℕ} {x y : ℕ → F} {syn : List Byte} {n : ℕ} (hx : Set.InjOn x P) (hx0 : ∀ p ∈ P, x p ≠ 0)
  (hS : ∀ k < n, φ (syn.getD k 0) = powerSum P x y k)
include hx0 hS

include hx in
theorem locatorLoop_holds (i : ℕ) (hi : i ≤ n) :
    (locatorLoop syn i).Holds φ (powerSum P x y) i ∧ (locatorLoop syn i).l ≤ P.card := by
  induction i with
  | zero => exact ⟨locatorLoop_zero_holds hφ syn _, Nat.zero_le _⟩
  | succ i ih =>
    obtain ⟨hst, hl⟩ := ih (Nat.le_of_succ_le hi)
    rw [locatorLoop_succ]
    exact locatorStep_holds hφ hx hx0 hst hl fun k hk => hS k (hk.trans_lt hi)

variable (hn : 2 * P.card ≤ n)
include hn

include hx in
/-- Two rounds for each locator make the loop's register the error locator. -/
theorem locator_eq (hy : ∀ p ∈ P, y p ≠ 0) :
    listPoly φ (locator syn n).1 = errorLocator P x ∧ (locator syn n).1.length = P.card + 1 ∧
      (locator syn n).2 = P.card := by
  obtain ⟨hst, hl⟩ := locatorLoop_holds hφ hx hx0 hS n le_rfl
  obtain ⟨hc, hcard⟩ := hst.eq_errorLocator hx hx0 hy hl hn
  have hne : listPoly φ (locatorLoop syn n).c ≠ 0 := fun h0 => by
    simpa [h0] using hst.coeff_zero
  rw [locator_eq_loop]
  refine ⟨(listPoly_stripZeros hφ _).trans hc, ?_, hcard⟩
  rw [stripZeros_length hφ _ hne, hc, natDegree_errorLocator hx0]

theorem listPoly_evaluator {c : List Byte} (hc : listPoly φ c = errorLocator P x) (hne : P.Nonempty) :
    listPoly φ (evaluator syn c n) = errorEvaluator P x y := by
  have hpos := hne.card_pos
  refine listPoly_map_range hφ _ (fun k hk => ?_) fun k hk => ?_
  · rw [← conv_errorLocator, ← hc, hφ.map_foldl_xor, hφ.map_zero, zero_add, conv_eq_sum,
      ← Finset.sum_flip (fun j => (listPoly φ c).coeff j * powerSum P x y (k - j))]
    refine Finset.sum_congr rfl fun i hi => ?_
    have hik := Finset.mem_range.mp hi
    rw [hφ.map_gfmul, hS i (by omega), coeff_listPoly hφ, mul_comm, Nat.sub_sub_self (Nat.lt_succ_iff.mp hik)]
  · exact coeff_eq_zero_of_natDegree_lt ((natDegree_errorEvaluator_le hx0).trans_lt (by omega))

end

end Sys2Proof.Machine
end

section
/-! Words and their distance (43_rs_decoder.md R170, R171, R173): the syndromes of a word are, against a word of the code,
sums of powers over the positions where the two differ. -/

namespace Sys2Proof.Machine

/-! ### The positions where two words differ (R173) -/

/-- The positions where two words of one length differ. -/
def errorSet (a b : List Byte) : Finset ℕ := (Finset.range a.length).filter fun p => a.getD p 0 ≠ b.getD p 0

theorem mem_errorSet {a b : List Byte} {p : ℕ} : p ∈ errorSet a b ↔ p < a.length ∧ a.getD p 0 ≠ b.getD p 0 := by
  rw [errorSet, Finset.mem_filter, Finset.mem_range]

theorem card_errorSet (a b : List Byte) :
    (errorSet a b).card = (List.range a.length).countP fun p => a.getD p 0 ≠ b.getD p 0 := by
  rw [errorSet, ← Nat.count_eq_card_filter_range, Nat.count]

theorem distance_eq_card {a b : List Byte} (h : a.length = b.length) : distance a b = (errorSet a b).card := by
  have hzip : List.zip a b = (List.range a.length).map fun p => (a.getD p 0, b.getD p 0) := by
    refine List.ext_getElem (by simp [h]) fun p hp _ => ?_
    have hpa : p < a.length := (List.lt_length_left_of_zip hp)
    simp [hpa, h ▸ hpa]
  rw [card_errorSet, distance, hzip, List.countP_map]
  exact List.countP_congr fun p _ => by simp

theorem eq_of_errorSet_eq_empty {a b : List Byte} (h : a.length = b.length) (hempty : errorSet a b = ∅) : a = b := by
  refine List.ext_getElem h fun p ha hb => ?_
  by_contra hne
  have hp : p ∈ errorSet a b := mem_errorSet.mpr ⟨ha, by simpa [ha, hb] using hne⟩
  simp [hempty] at hp

/-! ### Locators (R176, part 2) -/

/-- The locator of position `p` in a word of length `len`. -/
def posLocator (len p : ℕ) : Byte := alphaPow (len - 1 - p)

theorem posLocator_ne_zero (len p : ℕ) : posLocator len p ≠ 0 := alphaPow_ne_zero _

theorem posLocator_injOn {len : ℕ} (hlen : len ≤ 255) {p q : ℕ} (hp : p < len) (hq : q < len)
    (h : posLocator len p = posLocator len q) : p = q := by
  have hlog := congrArg gfLog h
  rw [posLocator, posLocator, gfLog_alphaPow, gfLog_alphaPow, Nat.mod_eq_of_lt (by omega),
    Nat.mod_eq_of_lt (by omega)] at hlog
  omega

/-- The locators in the field. -/
def locators {F : Type} (φ : Byte → F) (len p : ℕ) : F := φ (posLocator len p)

theorem map_posLocator {F : Type} (φ : Byte → F) (len p : ℕ) : φ (posLocator len p) = locators φ len p := rfl

/-- The differences of two words in the field: as error values they make `b` of `a`. -/
def differences {F : Type} (φ : Byte → F) (a b : List Byte) (p : ℕ) : F := φ (a.getD p 0 ^^^ b.getD p 0)

/-! ### Syndromes (R171) -/

theorem syndromes_eq_zero_iff {r : List Byte} {n : ℕ} :
    (∀ x ∈ syndromes r n, x = 0) ↔ ∀ j < n, evalHigh (gfExp j) r = 0 := by
  simp [syndromes]

theorem getD_syndromes (r : List Byte) {n j : ℕ} (hj : j < n) : (syndromes r n).getD j 0 = evalHigh (gfExp j) r := by
  simp [syndromes, hj]

section
variable {F : Type} [Field F] {φ : Byte → F} (hφ : IsFieldMap φ)
include hφ

theorem map_mulPow (x v : Byte) (k : ℕ) : φ (mulPow x k v) = φ v * φ x ^ k := by
  induction k generalizing v with
  | zero => rw [mulPow_zero, pow_zero, mul_one]
  | succ k ih => rw [mulPow_succ, ih, hφ.map_gfmul, pow_succ', mul_assoc]

theorem map_evalHigh (x : Byte) (r : List Byte) :
    φ (evalHigh x r) = ∑ p ∈ Finset.range r.length, φ (r.getD p 0) * φ x ^ (r.length - 1 - p) := by
  induction r with
  | nil => exact hφ.map_zero
  | cons c r ih =>
    rw [evalHigh_cons, hφ.map_xor, map_mulPow hφ, ih, List.length_cons, Finset.sum_range_succ', add_comm]
    simp [Nat.sub_sub, Nat.add_comm]

/-- Where the words agree the terms cancel. -/
theorem map_syndrome_add {a b : List Byte} (h : a.length = b.length) {j : ℕ} (hj : j < 255) :
    φ (evalHigh (gfExp j) a) + φ (evalHigh (gfExp j) b) =
      powerSum (errorSet a b) (locators φ a.length) (differences φ a b) j := by
  have hpow : ∀ p, φ (gfExp j) ^ (a.length - 1 - p) = locators φ a.length p ^ j := fun p => by
    rw [← alphaPow_of_lt hj, hφ.map_alphaPow, locators, posLocator, hφ.map_alphaPow (a.length - 1 - p), ← pow_mul,
      ← pow_mul, mul_comm]
  rw [map_evalHigh hφ, map_evalHigh hφ, ← h, ← Finset.sum_add_distrib, powerSum, errorSet, Finset.sum_filter]
  refine Finset.sum_congr rfl fun p _ => ?_
  rw [hpow, ← add_mul, ← hφ.map_xor]
  rw [differences]
  split
  · rfl
  · next hp =>
    rw [not_not.mp hp, BitVec.xor_self]
    exact mul_eq_zero_of_left hφ.map_zero _

theorem locators_injOn {a b : List Byte} (hlen : a.length ≤ 255) :
    Set.InjOn (locators φ a.length) (errorSet a b) := fun _ hp _ hq h =>
  posLocator_injOn hlen (mem_errorSet.mp hp).1 (mem_errorSet.mp hq).1 (hφ.injective h)

theorem locators_ne_zero (len p : ℕ) : locators φ len p ≠ 0 := hφ.map_eq_zero_iff.not.mpr (posLocator_ne_zero len p)

theorem differences_ne_zero {a b : List Byte} {p : ℕ} (hp : p ∈ errorSet a b) : differences φ a b p ≠ 0 := by
  rw [Ne, differences, hφ.map_eq_zero_iff]
  exact fun h => (mem_errorSet.mp hp).2 (BitVec.xor_eq_zero_iff.mp h)

/-- Against a word of the code the syndromes are sums of powers. -/
theorem map_getD_syndromes {r c : List Byte} {n : ℕ} (h : r.length = c.length) (hn : n ≤ 255)
    (hc : ∀ x ∈ syndromes c n, x = 0) {k : ℕ} (hk : k < n) :
    φ ((syndromes r n).getD k 0) = powerSum (errorSet r c) (locators φ r.length) (differences φ r c) k := by
  rw [getD_syndromes r hk, ← map_syndrome_add hφ h (hk.trans_le hn), syndromes_eq_zero_iff.mp hc k hk, hφ.map_zero,
    add_zero]

end

/-- Two words of the code that differ in at most `n` positions are the same (R173). -/
theorem eq_of_distance_le {a b : List Byte} {n : ℕ} (h : a.length = b.length) (hlen : a.length ≤ 255) (hn : n ≤ 255)
    (ha : ∀ x ∈ syndromes a n, x = 0) (hb : ∀ x ∈ syndromes b n, x = 0) (hd : distance a b ≤ n) : a = b := by
  obtain ⟨F, _, φ, hφ⟩ := exists_isFieldMap
  refine eq_of_errorSet_eq_empty h (Finset.eq_empty_of_forall_notMem fun p hp => ?_)
  have hzero := eq_zero_of_powerSum_eq_zero (y := differences φ a b) (locators_injOn hφ hlen)
    (distance_eq_card h ▸ hd) (fun k hk => ?_) p hp
  · exact differences_ne_zero hφ hp hzero
  · rw [← map_getD_syndromes hφ h hn hb hk, getD_syndromes a hk, syndromes_eq_zero_iff.mp ha k hk, hφ.map_zero]

/-- Words that agree but for their ends differ in the ends at most. -/
theorem distance_append_le (d x y : List Byte) : distance (d ++ x) (d ++ y) ≤ x.length := by
  rw [distance, List.zip_append rfl, List.countP_append]
  have hd : (List.zip d d).countP (fun p => p.1 != p.2) = 0 := by
    rw [List.countP_eq_zero]
    intro p hp
    obtain ⟨i, hi, rfl⟩ := List.getElem_of_mem hp
    simp
  rw [hd, zero_add]
  exact List.countP_le_length.trans (by simp)

/-- Settles O49: a block and its data followed by their check codewords differ in the last `n` bytes at most. -/
theorem codewordIffSyndromesZero : Obligations.CodewordIffSyndromesZero := by
  intro r n hn hlen
  refine ⟨fun hr => ⟨r.take (r.length - n), by simp, ?_⟩, fun ⟨d, _, hd⟩ => hd ▸ syndromes_append_rsecc d n⟩
  have hdist := distance_append_le (r.take (r.length - n)) (r.drop (r.length - n)) (rsecc (r.take (r.length - n)) n)
  rw [List.take_append_drop, List.length_drop, Nat.sub_sub_self hn] at hdist
  exact eq_of_distance_le (by simp [hn]) hlen (hn.trans hlen) hr (syndromes_append_rsecc _ n) hdist

end Sys2Proof.Machine
end

section
/-! The corrector (43_rs_decoder.md R174, R176): what it returns is a word of the code at the reported distance, and it
finds every word of the code within half the number of check codewords. -/

namespace Sys2Proof.Machine

open Polynomial

/-! ### The result of the corrector -/

theorem all_eq_zero_iff {syn : List Byte} : syn.all (· = 0) = true ↔ ∀ x ∈ syn, x = 0 := by
  simp

/-- The checks of R176 that a locator `c` of degree `l` and the word `w` made with it pass. -/
structure Corrects (r : List Byte) (n : ℕ) (c : List Byte) (l : ℕ) (w : List Byte) : Prop where
  length_eq : c.length = l + 1
  le_half : l ≤ n / 2
  positions_length : (errorPositions c r.length).length = l
  applied : applyErrors (evaluator (syndromes r n) c n) (derivative c) r.length (errorPositions c r.length) r = some w
  codeword : ∀ x ∈ syndromes w n, x = 0

theorem rscorrect_of_codeword {r : List Byte} {n : ℕ} (h : ∀ x ∈ syndromes r n, x = 0) : rscorrect r n = some (r, 0) :=
  if_pos (all_eq_zero_iff.mpr h)

theorem rscorrect_eq_some_iff {r w : List Byte} {n e : ℕ} (h : ¬ ∀ x ∈ syndromes r n, x = 0) :
    rscorrect r n = some (w, e) ↔
      Corrects r n (locator (syndromes r n) n).1 e w ∧ (locator (syndromes r n) n).2 = e := by
  rw [← all_eq_zero_iff] at h
  rw [rscorrect, if_neg h]
  generalize locator (syndromes r n) n = cl
  obtain ⟨c, l⟩ := cl
  dsimp only
  split
  · next hbad =>
    refine iff_of_false (by simp) ?_
    rintro ⟨hc, rfl⟩
    exact hbad.elim (absurd hc.length_eq) (Nat.not_lt.mpr hc.le_half)
  split
  · next hpos =>
    refine iff_of_false (by simp) ?_
    rintro ⟨hc, rfl⟩
    exact hpos hc.positions_length
  split
  · next hfail =>
    refine iff_of_false (by simp) ?_
    rintro ⟨hc, rfl⟩
    simpa [hfail] using hc.applied
  next hchecks hpos _ r' hr =>
    obtain ⟨hlen, hle⟩ := not_or.mp hchecks
    constructor
    · intro heq
      split at heq
      · next hcode =>
        obtain ⟨rfl, rfl⟩ : r' = w ∧ l = e := by simpa using heq
        exact ⟨⟨not_not.mp hlen, Nat.not_lt.mp hle, not_not.mp hpos, hr, all_eq_zero_iff.mp hcode⟩, rfl⟩
      · simp at heq
    · rintro ⟨hc, rfl⟩
      obtain rfl : r' = w := Option.some.inj (hr.symm.trans hc.applied)
      rw [if_pos (all_eq_zero_iff.mpr hc.codeword)]

/-! ### Error values put in their places (R176, part 3) -/

section
variable {om cd : List Byte} {len : ℕ}

theorem errorValue_eq_some_iff {p : ℕ} {mag : Byte} :
    errorValue om cd len p = some mag ↔ evalLow (gfInv (posLocator len p)) cd ≠ 0 ∧ mag ≠ 0 ∧
      gfmul (gfmul (posLocator len p) (evalLow (gfInv (posLocator len p)) om))
        (gfInv (evalLow (gfInv (posLocator len p)) cd)) = mag := by
  rw [errorValue, ← alphaPow, ← posLocator]
  dsimp only
  split
  · next hden => simp [hden]
  split
  · next hden hmag =>
    exact iff_of_false (by simp) fun h => h.2.1 (h.2.2.symm.trans hmag)
  · next hden hmag =>
    rw [Option.some.injEq]
    exact ⟨fun h => ⟨hden, h ▸ hmag, h⟩, fun h => h.2.2⟩

theorem applyErrors_cons_eq_some_iff {p : ℕ} {ps : List ℕ} {r w : List Byte} :
    applyErrors om cd len (p :: ps) r = some w ↔ ∃ mag, errorValue om cd len p = some mag ∧
      applyErrors om cd len ps (r.set p (r.getD p 0 ^^^ mag)) = some w := by
  rw [applyErrors]
  split <;> simp_all

theorem getD_set_same {r : List Byte} {p : ℕ} (hp : p < r.length) (c : Byte) : (r.set p c).getD p 0 = c := by
  simp [hp]

theorem getD_set_ne {r : List Byte} {p q : ℕ} (hpq : p ≠ q) (c : Byte) : (r.set p c).getD q 0 = r.getD q 0 := by
  simp [List.getD_eq_getElem?_getD, hpq]

/-- Positions that are not listed keep their byte. -/
theorem getD_applyErrors_of_notMem {ps : List ℕ} {r w : List Byte} {q : ℕ} (h : applyErrors om cd len ps r = some w)
    (hq : q ∉ ps) : w.getD q 0 = r.getD q 0 := by
  induction ps generalizing r with
  | nil => rw [Option.some.inj h]
  | cons p ps ih =>
    obtain ⟨mag, -, hrest⟩ := applyErrors_cons_eq_some_iff.mp h
    obtain ⟨hqp, hqps⟩ := not_or.mp (List.mem_cons.not.mp hq)
    rw [ih hrest hqps, getD_set_ne (Ne.symm hqp)]

/-- Each listed position gets its error value added once. -/
theorem getD_applyErrors_of_mem {ps : List ℕ} {r w : List Byte} {q : ℕ} (h : applyErrors om cd len ps r = some w)
    (hps : ps.Nodup) (hq : q ∈ ps) (hlt : q < r.length) :
    ∃ mag, errorValue om cd len q = some mag ∧ w.getD q 0 = r.getD q 0 ^^^ mag := by
  induction ps generalizing r with
  | nil => exact absurd hq List.not_mem_nil
  | cons p ps ih =>
    obtain ⟨mag, hmag, hrest⟩ := applyErrors_cons_eq_some_iff.mp h
    obtain ⟨hp, hps⟩ := List.nodup_cons.mp hps
    rcases List.mem_cons.mp hq with rfl | hq
    · exact ⟨mag, hmag, by rw [getD_applyErrors_of_notMem hrest hp, getD_set_same hlt]⟩
    · obtain ⟨m, hm, hw⟩ := ih hrest hps hq (by rwa [List.length_set])
      exact ⟨m, hm, by rw [hw, getD_set_ne (ne_of_mem_of_not_mem hq hp).symm]⟩

theorem applyErrors_of_forall {ps : List ℕ} (h : ∀ p ∈ ps, ∃ mag, errorValue om cd len p = some mag) (r : List Byte) :
    ∃ w, applyErrors om cd len ps r = some w := by
  induction ps generalizing r with
  | nil => exact ⟨r, rfl⟩
  | cons p ps ih =>
    obtain ⟨⟨mag, hmag⟩, hps⟩ := List.forall_mem_cons.mp h
    obtain ⟨w, hw⟩ := ih hps (r.set p (r.getD p 0 ^^^ mag))
    exact ⟨w, applyErrors_cons_eq_some_iff.mpr ⟨mag, hmag, hw⟩⟩

end

/-! ### Soundness -/

theorem errorPositions_nodup (c : List Byte) (len : ℕ) : (errorPositions c len).Nodup := List.nodup_range.filter _

theorem lt_of_mem_errorPositions {c : List Byte} {len p : ℕ} (h : p ∈ errorPositions c len) : p < len :=
  List.mem_range.mp (List.mem_of_mem_filter h)

/-- The error values are not 0, so a corrected word differs exactly where they are added. -/
theorem errorSet_applyErrors {om cd c r w : List Byte}
    (h : applyErrors om cd r.length (errorPositions c r.length) r = some w) :
    errorSet r w = (errorPositions c r.length).toFinset := by
  ext p
  rw [mem_errorSet, List.mem_toFinset]
  by_cases hp : p ∈ errorPositions c r.length
  · have hlt := lt_of_mem_errorPositions hp
    obtain ⟨mag, hmag, hw⟩ := getD_applyErrors_of_mem h (errorPositions_nodup c _) hp hlt
    simp only [hp, hlt, true_and, iff_true, hw]
    exact fun heq => (errorValue_eq_some_iff.mp hmag).2.1 (by simpa using heq.symm)
  · simp only [hp, iff_false, getD_applyErrors_of_notMem h hp]
    exact fun hne => hne.2 rfl

theorem distance_self (r : List Byte) : distance r r = 0 := by
  rw [distance_eq_card rfl, Finset.card_eq_zero]
  exact Finset.eq_empty_of_forall_notMem fun p hp => (mem_errorSet.mp hp).2 rfl

/-- Settles O50: the corrector checks that its result is a word of the code, and adds as many non-zero error values as it
reports. -/
theorem correctorSound : Obligations.CorrectorSound := by
  intro r c n e _ _ h
  have hlen := rscorrect_length h
  refine ⟨hlen, ?_⟩
  by_cases hzero : ∀ x ∈ syndromes r n, x = 0
  · obtain ⟨rfl, rfl⟩ : r = c ∧ 0 = e := by simpa [rscorrect_of_codeword hzero] using h
    exact ⟨hzero, (distance_self r).symm, Nat.zero_le _⟩
  · obtain ⟨hc, -⟩ := (rscorrect_eq_some_iff hzero).mp h
    refine ⟨hc.codeword, ?_, by have := hc.le_half; omega⟩
    rw [distance_eq_card hlen.symm, errorSet_applyErrors hc.applied,
      List.toFinset_card_of_nodup (errorPositions_nodup _ _), hc.positions_length]

/-! ### Completeness -/

/-- The point where part 2 of R176 evaluates the locator. -/
theorem gfExp_inv_posLocator {len p : ℕ} (hlen : len ≤ 255) (hp : p < len) :
    gfExp ((255 - (len - 1 - p)) % 255) = gfInv (posLocator len p) := by
  rw [gfInv, posLocator, gfLog_alphaPow, Nat.mod_eq_of_lt (by omega : len - 1 - p < 255)]

theorem map_evalLow_inv {F : Type} [Field F] {φ : Byte → F} (hφ : IsFieldMap φ) (len p : ℕ) (q : List Byte) :
    φ (evalLow (gfInv (posLocator len p)) q) = (listPoly φ q).eval (locators φ len p)⁻¹ := by
  rw [map_evalLow hφ, hφ.map_gfInv (posLocator_ne_zero len p), map_posLocator φ]

section
variable {F : Type} [Field F] {φ : Byte → F} (hφ : IsFieldMap φ) {r c cl : List Byte} (hlen : r.length ≤ 255)
  (hcl : listPoly φ cl = errorLocator (errorSet r c) (locators φ r.length))
include hφ hlen hcl

/-- The search of part 2 finds exactly the positions where the words differ. -/
theorem mem_errorPositions_iff {p : ℕ} : p ∈ errorPositions cl r.length ↔ p ∈ errorSet r c := by
  have hroot (hp : p < r.length) : evalLow (gfExp ((255 - (r.length - 1 - p)) % 255)) cl = 0 ↔
      ∃ q ∈ errorSet r c, locators φ r.length q = locators φ r.length p := by
    rw [gfExp_inv_posLocator hlen hp, ← hφ.map_eq_zero_iff, map_evalLow_inv hφ, hcl]
    exact eval_errorLocator_inv_eq_zero_iff (locators_ne_zero hφ _ p)
  rw [errorPositions, List.mem_filter, List.mem_range, decide_eq_true_eq]
  refine ⟨fun ⟨hp, hzero⟩ => ?_, fun hp => ?_⟩
  · obtain ⟨q, hq, hqp⟩ := (hroot hp).mp hzero
    exact posLocator_injOn hlen (mem_errorSet.mp hq).1 hp (hφ.injective hqp) ▸ hq
  · have hlt := (mem_errorSet.mp hp).1
    exact ⟨hlt, (hroot hlt).mpr ⟨p, hp, rfl⟩⟩

theorem errorPositions_length : (errorPositions cl r.length).length = (errorSet r c).card := by
  rw [← List.toFinset_card_of_nodup (errorPositions_nodup _ _)]
  exact congrArg Finset.card (Finset.ext fun p => by rw [List.mem_toFinset, mem_errorPositions_iff hφ hlen hcl])

/-- The quotient of part 3 is the difference of the words. -/
theorem errorValue_eq_some {om cd : List Byte} {p : ℕ} (hp : p ∈ errorSet r c)
    (hom : listPoly φ om = errorEvaluator (errorSet r c) (locators φ r.length) (differences φ r c))
    (hcd : listPoly φ cd = Polynomial.derivative (listPoly φ cl)) :
    errorValue om cd r.length p = some (r.getD p 0 ^^^ c.getD p 0) := by
  have hx0 : ∀ p ∈ errorSet r c, locators φ r.length p ≠ 0 := fun p _ => locators_ne_zero hφ _ p
  have herase := eval_errorLocator_erase_ne_zero (locators_injOn hφ hlen) hx0 hp
  have hden : φ (evalLow (gfInv (posLocator r.length p)) cd) = locators φ r.length p *
      (errorLocator ((errorSet r c).erase p) (locators φ r.length)).eval (locators φ r.length p)⁻¹ := by
    have := hφ.charTwo
    rw [map_evalLow_inv hφ, hcd, hcl, eval_derivative_errorLocator hx0 hp, CharTwo.neg_eq]
  have hden0 : evalLow (gfInv (posLocator r.length p)) cd ≠ 0 :=
    hφ.map_eq_zero_iff.not.mp (hden ▸ mul_ne_zero (hx0 p hp) herase)
  refine errorValue_eq_some_iff.mpr ⟨hden0, hφ.map_eq_zero_iff.not.mp (differences_ne_zero hφ hp), hφ.injective ?_⟩
  rw [hφ.map_gfmul, hφ.map_gfmul, hφ.map_gfInv hden0, hden, map_evalLow_inv hφ, hom, eval_errorEvaluator hx0 hp,
    map_posLocator φ, mul_left_comm]
  exact mul_inv_cancel_right₀ (mul_ne_zero (hx0 p hp) herase) _

end

/-- Adding the difference at the positions where the words differ makes the other word. -/
theorem eq_of_applyErrors {om cd cl r c w : List Byte} (hrc : r.length = c.length)
    (hmem : ∀ p, p ∈ errorPositions cl r.length ↔ p ∈ errorSet r c)
    (hvalue : ∀ p ∈ errorSet r c, errorValue om cd r.length p = some (r.getD p 0 ^^^ c.getD p 0))
    (h : applyErrors om cd r.length (errorPositions cl r.length) r = some w) : w = c := by
  have hw := applyErrors_length h
  refine eq_of_errorSet_eq_empty (hw.trans hrc) (Finset.eq_empty_of_forall_notMem fun p hp => ?_)
  obtain ⟨hlt, hne⟩ := mem_errorSet.mp hp
  refine hne ?_
  by_cases hpos : p ∈ errorPositions cl r.length
  · obtain ⟨mag, hmag, hwp⟩ := getD_applyErrors_of_mem h (errorPositions_nodup _ _) hpos (hw ▸ hlt)
    obtain rfl := Option.some.inj (hmag.symm.trans (hvalue p ((hmem p).mp hpos)))
    rw [hwp, ← BitVec.xor_assoc, BitVec.xor_self, BitVec.zero_xor]
  · rw [getD_applyErrors_of_notMem h hpos]
    by_contra hrp
    exact hpos ((hmem p).mpr (mem_errorSet.mpr ⟨hw ▸ hlt, hrp⟩))

/-- With at most `n/2` errors against a word `c` of the code, every step of R176 succeeds and makes `c`. -/
theorem corrects_of_distance_le {r c : List Byte} {n : ℕ} (hlen : r.length ≤ 255) (hn : n ≤ 255) (hrc : r.length = c.length)
    (hc : ∀ x ∈ syndromes c n, x = 0) (hne : r ≠ c) (hd : 2 * (errorSet r c).card ≤ n) :
    Corrects r n (locator (syndromes r n) n).1 (errorSet r c).card c ∧
      (locator (syndromes r n) n).2 = (errorSet r c).card := by
  obtain ⟨F, _, φ, hφ⟩ := exists_isFieldMap
  have hx0 : ∀ p ∈ errorSet r c, locators φ r.length p ≠ 0 := fun p _ => locators_ne_zero hφ _ p
  have hS : ∀ k < n, φ ((syndromes r n).getD k 0) =
      powerSum (errorSet r c) (locators φ r.length) (differences φ r c) k := fun k => map_getD_syndromes hφ hrc hn hc
  obtain ⟨hcl, hcllen, hl⟩ := locator_eq hφ (locators_injOn hφ hlen) hx0 hS hd fun p => differences_ne_zero hφ
  have hnonempty : (errorSet r c).Nonempty :=
    Finset.nonempty_iff_ne_empty.mpr fun hempty => hne (eq_of_errorSet_eq_empty hrc hempty)
  have hom := listPoly_evaluator hφ hx0 hS hd hcl hnonempty
  have hmem : ∀ p, p ∈ errorPositions _ r.length ↔ p ∈ errorSet r c := fun p => mem_errorPositions_iff hφ hlen hcl
  have hvalue : ∀ p ∈ errorSet r c, errorValue _ _ r.length p = some (r.getD p 0 ^^^ c.getD p 0) :=
    fun p hp => errorValue_eq_some hφ hlen hcl hp hom (listPoly_derivative hφ _)
  obtain ⟨w, hw⟩ := applyErrors_of_forall (fun p hp => ⟨_, hvalue p ((hmem p).mp hp)⟩) r
  obtain rfl := eq_of_applyErrors hrc hmem hvalue hw
  exact ⟨⟨hcllen, by omega, errorPositions_length hφ hlen hcl, hw, hc⟩, hl⟩

/-- Settles O51: a block that is no word of the code differs from `c` somewhere, and the steps of R176 find where and by
what; a block that is one is `c`. -/
theorem correctorComplete : Obligations.CorrectorComplete := by
  intro r c n hn hlen hcr hc hd
  by_cases hzero : ∀ x ∈ syndromes r n, x = 0
  · obtain rfl := eq_of_distance_le hcr.symm hlen (hn.trans hlen) hzero hc (by omega)
    rw [rscorrect_of_codeword hzero, distance_self]
  · have hne : r ≠ c := fun h => hzero (h ▸ hc)
    rw [distance_eq_card hcr.symm] at hd ⊢
    exact (rscorrect_eq_some_iff hzero).mpr (corrects_of_distance_le hlen (hn.trans hlen) hcr.symm hc hne hd)

end Sys2Proof.Machine
end

section
/-! Grids (44_matrix_rasterizer.md R191, R206, R211, R212): what `buildGrid` puts on a cell, and what `setCell` and `placeBits`
put on the cells they name and leave on every other one. -/

namespace Sys2Proof.Machine

section
variable {α : Type} {dflt : α} {size r c : Nat}

/-! ### Built grids -/

theorem cellAt_buildGrid (f : Nat → Nat → α) (hr : r < size) (hc : c < size) :
    cellAt dflt (buildGrid size f) r c = f r c := by
  simp [cellAt, buildGrid, hr, hc]

theorem squareGrid_buildGrid (size : Nat) (f : Nat → Nat → α) : SquareGrid size (buildGrid size f) := by
  simp [SquareGrid, buildGrid]

/-! ### One cell replaced (R191) -/

variable {g : Grid α}

theorem SquareGrid.setCell (h : SquareGrid size g) (r c : Nat) (v : α) : SquareGrid size (setCell g r c v) := by
  obtain ⟨hlen, hrows⟩ := h
  refine ⟨(List.length_modify _ _ _).trans hlen, fun row hrow => ?_⟩
  obtain ⟨i, hi⟩ := List.mem_iff_getElem?.mp hrow
  rw [Machine.setCell, List.getElem?_modify, Option.map_eq_map, Option.map_eq_some_iff] at hi
  obtain ⟨old, hold, rfl⟩ := hi
  have hmem := hrows old (List.mem_of_getElem? hold)
  split
  · rwa [List.length_set]
  · exact hmem

/-- A cell of a grid, through its row as an option. -/
theorem cellAt_eq (g : Grid α) (r c : Nat) : cellAt dflt g r c = ((g[r]?.getD [])[c]?).getD dflt := by
  rw [cellAt, List.getD_eq_getElem?_getD, List.getD_eq_getElem?_getD]

theorem cellAt_setCell_same (h : SquareGrid size g) (hr : r < size) (hc : c < size) (v : α) :
    cellAt dflt (setCell g r c v) r c = v := by
  obtain ⟨hlen, hrows⟩ := h
  have hr' : r < g.length := hlen.symm ▸ hr
  have hc' : c < (g[r]).length := (hrows _ (List.getElem_mem hr')).symm ▸ hc
  simp [cellAt_eq, setCell, hr', hc']

theorem cellAt_setCell_other (g : Grid α) {r' c' : Nat} (h : (r', c') ≠ (r, c)) (v : α) :
    cellAt dflt (setCell g r c v) r' c' = cellAt dflt g r' c' := by
  simp only [cellAt_eq, setCell, List.getElem?_modify]
  by_cases hr : r = r'
  · subst hr
    have hc : c ≠ c' := fun hc => h (by rw [hc])
    cases g[r]? <;> simp [hc]
  · simp [hr]

end

/-! ### Bits placed on a list of cells (R206, R211, R212) -/

section
variable {size r c : Nat} {g : Grid Module}

theorem moduleOfBit_ne_empty (b : Bool) : moduleOfBit b ≠ .empty := by cases b <;> decide

theorem SquareGrid.placeBits (h : SquareGrid size g) (cells : List (Nat × Nat)) (bits : List Bool) :
    SquareGrid size (placeBits g cells bits) := by
  induction cells generalizing g bits with
  | nil => exact h
  | cons p cells ih =>
    cases bits with
    | nil => exact h
    | cons b bits => exact ih (h.setCell p.1 p.2 (moduleOfBit b)) bits

theorem cellAt_placeBits_of_notMem {cells : List (Nat × Nat)} (h : (r, c) ∉ cells) (g : Grid Module) (bits : List Bool) :
    cellAt .empty (placeBits g cells bits) r c = cellAt .empty g r c := by
  induction cells generalizing g bits with
  | nil => rfl
  | cons p cells ih =>
    cases bits with
    | nil => rfl
    | cons b bits =>
      obtain ⟨hp, hcells⟩ := not_or.mp (List.mem_cons.not.mp h)
      rw [Machine.placeBits, ih hcells, cellAt_setCell_other g hp]

/-- Bit `i` stands on cell `i` of the list, where no cell is named twice and all lie in the grid. -/
theorem cellAt_placeBits_getD (h : SquareGrid size g) {cells : List (Nat × Nat)} (hnodup : cells.Nodup)
    (hin : ∀ p ∈ cells, p.1 < size ∧ p.2 < size) {bits : List Bool} {i : Nat} (hi : i < cells.length)
    (hb : i < bits.length) :
    cellAt .empty (placeBits g cells bits) (cells.getD i (0, 0)).1 (cells.getD i (0, 0)).2
      = moduleOfBit (bits.getD i false) := by
  induction cells generalizing g bits i with
  | nil => exact absurd hi (Nat.not_lt_zero i)
  | cons p cells ih =>
    obtain ⟨hp, hcells⟩ := List.nodup_cons.mp hnodup
    obtain ⟨⟨hr, hc⟩, hrest⟩ := List.forall_mem_cons.mp hin
    cases bits with
    | nil => exact absurd hb (Nat.not_lt_zero i)
    | cons b bits =>
      cases i with
      | zero =>
        rw [Machine.placeBits, List.getD_cons_zero, List.getD_cons_zero, cellAt_placeBits_of_notMem hp,
          cellAt_setCell_same h hr hc]
      | succ i =>
        exact ih (h.setCell p.1 p.2 (moduleOfBit b)) hcells hrest (Nat.lt_of_succ_lt_succ hi) (Nat.lt_of_succ_lt_succ hb)

/-- A cell of the list holds some bit. -/
theorem cellAt_placeBits_of_mem (h : SquareGrid size g) {cells : List (Nat × Nat)} (hnodup : cells.Nodup)
    (hin : ∀ p ∈ cells, p.1 < size ∧ p.2 < size) {bits : List Bool} (hlen : cells.length ≤ bits.length)
    (hmem : (r, c) ∈ cells) : ∃ b, cellAt .empty (placeBits g cells bits) r c = moduleOfBit b := by
  obtain ⟨i, hi, hrc⟩ := List.getElem_of_mem hmem
  have hbit := cellAt_placeBits_getD h hnodup hin hi (hi.trans_le hlen)
  rw [List.getD_eq_getElem _ _ hi, hrc] at hbit
  exact ⟨_, hbit⟩

/-- Placing bits fills cells and empties none. -/
theorem cellAt_placeBits_ne_empty (h : SquareGrid size g) (hr : r < size) (hc : c < size) (hg : cellAt .empty g r c ≠ .empty)
    (cells : List (Nat × Nat)) (bits : List Bool) : cellAt .empty (placeBits g cells bits) r c ≠ .empty := by
  induction cells generalizing g bits with
  | nil => exact hg
  | cons p cells ih =>
    cases bits with
    | nil => exact hg
    | cons b bits =>
      refine ih (h.setCell p.1 p.2 (moduleOfBit b)) ?_ bits
      by_cases hp : (r, c) = p
      · subst hp
        rw [cellAt_setCell_same h hr hc]
        exact moduleOfBit_ne_empty b
      · rwa [cellAt_setCell_other g hp]

end

end Sys2Proof.Machine
end

section
/-! The functional patterns (44_matrix_rasterizer.md R191 to R201): what each pattern stamps on a cell, and which stamp stands
on it. -/

namespace Sys2Proof.Machine

theorem absDiff_eq_natAbs (a b : Nat) : absDiff a b = ((a : Int) - b).natAbs := by
  unfold absDiff
  omega

theorem matrixSize_eq (v : Nat) : matrixSize v = 4 * v + 17 := rfl

theorem le_matrixSize {v : Nat} (hv : 1 ≤ v) : 21 ≤ matrixSize v := by
  rw [matrixSize_eq]
  omega

/-! ### The last of several stamps (R191) -/

theorem lastStamp_concat (stamps : List Stamp) (x : Stamp) : lastStamp (stamps ++ [x]) = x.or (lastStamp stamps) := by
  rw [lastStamp, List.foldl_append]
  exact rfl

theorem lastStamp_mem {stamps : List Stamp} {x : Module} (h : lastStamp stamps = some x) : some x ∈ stamps := by
  induction stamps using List.reverseRecOn with
  | nil => exact absurd h (Option.some_ne_none x).symm
  | append_singleton stamps y ih =>
    rw [lastStamp_concat, Option.or_eq_some_iff] at h
    rcases h with rfl | ⟨-, h⟩
    · exact List.mem_append_right _ (List.mem_singleton_self _)
    · exact List.mem_append_left _ (ih h)

/-- Where the stamps that touch a cell agree, their value stands. -/
theorem lastStamp_eq_some {stamps : List Stamp} {x : Module} (hmem : some x ∈ stamps)
    (hagree : ∀ y ∈ stamps, y = none ∨ y = some x) : lastStamp stamps = some x := by
  cases h : lastStamp stamps with
  | none => exact absurd (lastStamp_eq_none.mp h _ hmem) (Option.some_ne_none x)
  | some y => exact (hagree _ (lastStamp_mem h)).resolve_left (Option.some_ne_none y)

/-! ### Each pattern's stamp on a cell -/

/-- The cells of the finder with top-left cell `(r0, c0)` (R192). -/
def InFinder (r0 c0 r c : Nat) : Prop := r0 ≤ r ∧ r ≤ r0 + 6 ∧ c0 ≤ c ∧ c ≤ c0 + 6

theorem finderAt_of_inFinder {r0 c0 r c : Nat} (h : InFinder r0 c0 r c) :
    finderAt r0 c0 r c = some (if max (absDiff r (r0 + 3)) (absDiff c (c0 + 3)) = 2 then .light else .dark) :=
  if_pos h

theorem separatorAt_eq_light {r0 c0 r c : Nat} (hbox : r0 ≤ r + 1 ∧ r ≤ r0 + 7 ∧ c0 ≤ c + 1 ∧ c ≤ c0 + 7)
    (hfinder : ¬ InFinder r0 c0 r c) : separatorAt r0 c0 r c = some .light := by
  obtain ⟨h1, h2, h3, h4⟩ := hbox
  exact if_pos ⟨h1, h2, h3, h4, Option.isNone_iff_eq_none.mpr (finderAt_eq_none.mpr hfinder)⟩

theorem separatorAt_eq_none_or_light (r0 c0 r c : Nat) :
    separatorAt r0 c0 r c = none ∨ separatorAt r0 c0 r c = some .light := by
  unfold separatorAt
  split
  · exact .inr rfl
  · exact .inl rfl

theorem alignmentAt_of_near {cr cc r c : Nat} (h : max (absDiff r cr) (absDiff c cc) ≤ 2) :
    alignmentAt cr cc r c = some (if max (absDiff r cr) (absDiff c cc) = 1 then .light else .dark) :=
  if_pos h

/-- The value on a cell that some alignment pattern touches (R195). -/
def alignmentStamp (size : Nat) (coords : List Nat) (r c : Nat) : Stamp :=
  lastStamp ((alignmentCentres size coords).map fun p => alignmentAt p.1 p.2 r c)

/-- The value on a cell that some separator touches (R193). -/
def separatorStamp (size r c : Nat) : Stamp := lastStamp ((finderCorners size).map fun p => separatorAt p.1 p.2 r c)

/-- The value on a cell that some finder touches (R192). -/
def finderStamp (size r c : Nat) : Stamp := lastStamp ((finderCorners size).map fun p => finderAt p.1 p.2 r c)

/-! No stamp is empty. -/

theorem lightOrDark_ne_empty (p : Prop) [Decidable p] : (if p then Module.light else .dark) ≠ .empty := by
  split <;> decide

theorem some_ne_empty {x : Module} (hx : x ≠ .empty) : (some x : Stamp) ≠ some .empty := fun h => hx (Option.some.inj h)

theorem finderAt_ne_empty (r0 c0 r c : Nat) : finderAt r0 c0 r c ≠ some .empty := by
  unfold finderAt
  split
  · exact some_ne_empty (lightOrDark_ne_empty _)
  · exact nofun

theorem separatorAt_ne_empty (r0 c0 r c : Nat) : separatorAt r0 c0 r c ≠ some .empty := by
  rcases separatorAt_eq_none_or_light r0 c0 r c with h | h <;> simp [h]

theorem alignmentAt_ne_empty (cr cc r c : Nat) : alignmentAt cr cc r c ≠ some .empty := by
  unfold alignmentAt
  split
  · exact some_ne_empty (lightOrDark_ne_empty _)
  · exact nofun

theorem timingAt_ne_empty (size r c : Nat) : timingAt size r c ≠ some .empty := by
  unfold timingAt
  split
  · exact some_ne_empty (moduleOfBit_ne_empty _)
  · split
    · exact some_ne_empty (moduleOfBit_ne_empty _)
    · exact nofun

theorem lastStamp_map_ne_empty {β : Type} {f : β → Stamp} (hf : ∀ p, f p ≠ some .empty) (l : List β) :
    lastStamp (l.map f) ≠ some .empty := by
  intro h
  obtain ⟨p, -, hp⟩ := List.mem_map.mp (lastStamp_mem h)
  exact hf p hp

theorem alignmentStamp_ne_empty (size : Nat) (coords : List Nat) (r c : Nat) :
    alignmentStamp size coords r c ≠ some .empty :=
  lastStamp_map_ne_empty (fun p : Nat × Nat => alignmentAt_ne_empty p.1 p.2 r c) _

theorem separatorStamp_ne_empty (size r c : Nat) : separatorStamp size r c ≠ some .empty :=
  lastStamp_map_ne_empty (fun p : Nat × Nat => separatorAt_ne_empty p.1 p.2 r c) _

theorem finderStamp_ne_empty (size r c : Nat) : finderStamp size r c ≠ some .empty :=
  lastStamp_map_ne_empty (fun p : Nat × Nat => finderAt_ne_empty p.1 p.2 r c) _

/-! Where the three corners (R192) put their stamps. -/

section
variable {size r c : Nat} (hs : 21 ≤ size)
include hs

theorem finderStamp_eq {p : Nat × Nat} (hp : p ∈ finderCorners size) (h : InFinder p.1 p.2 r c) :
    finderStamp size r c = some (if max (absDiff r (p.1 + 3)) (absDiff c (p.2 + 3)) = 2 then .light else .dark) := by
  refine lastStamp_eq_some (List.mem_map.mpr ⟨p, hp, finderAt_of_inFinder h⟩) fun y hy => ?_
  obtain ⟨q, hq, rfl⟩ := List.mem_map.mp hy
  by_cases hqp : q = p
  · subst hqp
    exact .inr (finderAt_of_inFinder h)
  · refine .inl (finderAt_eq_none.mpr ?_)
    obtain ⟨q1, q2⟩ := q
    obtain ⟨p1, p2⟩ := p
    simp only [finderCorners, List.mem_cons, Prod.mk.injEq, List.not_mem_nil, or_false, InFinder] at hp hq hqp h ⊢
    omega

theorem separatorStamp_of_inFinder {p : Nat × Nat} (hp : p ∈ finderCorners size) (h : InFinder p.1 p.2 r c) :
    separatorStamp size r c = none := by
  refine lastStamp_eq_none.mpr fun y hy => ?_
  obtain ⟨q, hq, rfl⟩ := List.mem_map.mp hy
  by_cases hqp : q = p
  · rw [hqp, separatorAt, finderAt_of_inFinder h]
    exact if_neg (by simp)
  · obtain ⟨q1, q2⟩ := q
    obtain ⟨p1, p2⟩ := p
    simp only [finderCorners, List.mem_cons, Prod.mk.injEq, List.not_mem_nil, or_false, InFinder] at hp hq hqp h ⊢
    rw [separatorAt_eq_none (finderAt_eq_none.mpr (by omega))]
    omega

/-- The cells of the separators (R193): in the corner squares of eight, off the finders. -/
theorem separatorStamp_eq_light (hr : r < size) (hc : c < size)
    (h : (r ≤ 7 ∧ c ≤ 7 ∧ ¬ (r ≤ 6 ∧ c ≤ 6)) ∨ (r ≤ 7 ∧ size ≤ c + 8 ∧ ¬ (r ≤ 6 ∧ size ≤ c + 7)) ∨
      (size ≤ r + 8 ∧ c ≤ 7 ∧ ¬ (size ≤ r + 7 ∧ c ≤ 6))) : separatorStamp size r c = some .light := by
  have htouch : ∃ p ∈ finderCorners size, separatorAt p.1 p.2 r c = some .light := by
    unfold finderCorners
    rcases h with h | h | h
    · exact ⟨(0, 0), by simp, separatorAt_eq_light (by omega) (by unfold InFinder; omega)⟩
    · exact ⟨(0, size - 7), by simp, separatorAt_eq_light (by omega) (by unfold InFinder; omega)⟩
    · exact ⟨(size - 7, 0), by simp, separatorAt_eq_light (by omega) (by unfold InFinder; omega)⟩
  refine lastStamp_eq_some (List.mem_map.mpr htouch) fun y hy => ?_
  obtain ⟨q, -, rfl⟩ := List.mem_map.mp hy
  exact separatorAt_eq_none_or_light _ _ _ _

end

/-! ### The stamp that stands (R191): the reserved cells before everything else -/

/-- The dark module, the cells of the version blocks and of the format strips (R196, R197, R201). -/
def Reserved (v r c : Nat) : Prop :=
  (r = matrixSize v - 8 ∧ c = 8) ∨ (7 ≤ v ∧ (r, c) ∈ versionCells (matrixSize v)) ∨
    (r, c) ∈ fmt1Cells ∨ (r, c) ∈ fmt2Cells (matrixSize v)

theorem reserved_iff {v r c : Nat} (hv : 1 ≤ v) :
    Reserved v r c ↔ (r = matrixSize v - 8 ∧ c = 8) ∨
      (7 ≤ v ∧ ((r ≤ 5 ∧ matrixSize v ≤ c + 11 ∧ c + 9 ≤ matrixSize v) ∨
        (c ≤ 5 ∧ matrixSize v ≤ r + 11 ∧ r + 9 ≤ matrixSize v))) ∨
      ((r = 8 ∧ c ≤ 8 ∧ c ≠ 6) ∨ (c = 8 ∧ r ≤ 8 ∧ r ≠ 6)) ∨
      (c = 8 ∧ matrixSize v ≤ r + 7 ∧ r < matrixSize v) ∨ (r = 8 ∧ matrixSize v ≤ c + 8 ∧ c < matrixSize v) := by
  rw [Reserved, mem_versionCells (le_matrixSize hv), mem_fmt1Cells, mem_fmt2Cells (le_matrixSize hv)]

section
variable {v r c : Nat} {coords : List Nat}

theorem functionCell_dark : functionCell v coords (matrixSize v - 8) 8 = (.dark, .format) :=
  if_pos ⟨rfl, rfl⟩

theorem functionCell_version (hdark : ¬ (r = matrixSize v - 8 ∧ c = 8))
    (h : 7 ≤ v ∧ (r, c) ∈ versionCells (matrixSize v)) : functionCell v coords r c = (.light, .version) := by
  rw [functionCell, if_neg hdark, if_pos h, reservedFill]

theorem functionCell_format (hdark : ¬ (r = matrixSize v - 8 ∧ c = 8))
    (hversion : ¬ (7 ≤ v ∧ (r, c) ∈ versionCells (matrixSize v)))
    (h : (r, c) ∈ fmt1Cells ∨ (r, c) ∈ fmt2Cells (matrixSize v)) : functionCell v coords r c = (.light, .format) := by
  rw [functionCell, if_neg hdark, if_neg hversion, if_pos h, reservedFill]

theorem functionCell_type_of_reserved (h : Reserved v r c) :
    (functionCell v coords r c).2 = .format ∨ (functionCell v coords r c).2 = .version := by
  by_cases hdark : r = matrixSize v - 8 ∧ c = 8
  · obtain ⟨rfl, rfl⟩ := hdark
    exact .inl (congrArg Prod.snd functionCell_dark)
  · by_cases hversion : 7 ≤ v ∧ (r, c) ∈ versionCells (matrixSize v)
    · exact .inr (congrArg Prod.snd (functionCell_version hdark hversion))
    · exact .inl (congrArg Prod.snd (functionCell_format hdark hversion
        ((h.resolve_left hdark).resolve_left hversion)))

section
variable (h : ¬ Reserved v r c)
include h

/-- Off the reserved cells, the patterns in the order of precedence of R191. -/
theorem functionCell_of_not_reserved :
    functionCell v coords r c =
      ((((alignmentStamp (matrixSize v) coords r c).map (·, ModuleType.alignment)).or
        ((timingAt (matrixSize v) r c).map (·, .timing))).or
        (((separatorStamp (matrixSize v) r c).map (·, .separator)).or
          ((finderStamp (matrixSize v) r c).map (·, .finder)))).getD (.empty, .data) := by
  obtain ⟨hdark, hrest⟩ := not_or.mp h
  obtain ⟨hversion, hformat⟩ := not_or.mp hrest
  rw [functionCell, if_neg hdark, if_neg hversion, if_neg hformat, ← alignmentStamp, ← separatorStamp, ← finderStamp]
  cases alignmentStamp (matrixSize v) coords r c with
  | some x => rfl
  | none =>
    cases timingAt (matrixSize v) r c with
    | some x => rfl
    | none =>
      cases separatorStamp (matrixSize v) r c with
      | some x => rfl
      | none => cases finderStamp (matrixSize v) r c <;> rfl

theorem functionCell_alignment {x : Module} (ha : alignmentStamp (matrixSize v) coords r c = some x) :
    functionCell v coords r c = (x, .alignment) := by
  simp [functionCell_of_not_reserved h, ha]

theorem functionCell_timing {x : Module} (ha : alignmentStamp (matrixSize v) coords r c = none)
    (ht : timingAt (matrixSize v) r c = some x) : functionCell v coords r c = (x, .timing) := by
  simp [functionCell_of_not_reserved h, ha, ht]

theorem functionCell_separator {x : Module} (ha : alignmentStamp (matrixSize v) coords r c = none)
    (ht : timingAt (matrixSize v) r c = none) (hsep : separatorStamp (matrixSize v) r c = some x) :
    functionCell v coords r c = (x, .separator) := by
  simp [functionCell_of_not_reserved h, ha, ht, hsep]

theorem functionCell_finder {x : Module} (ha : alignmentStamp (matrixSize v) coords r c = none)
    (ht : timingAt (matrixSize v) r c = none) (hsep : separatorStamp (matrixSize v) r c = none)
    (hf : finderStamp (matrixSize v) r c = some x) : functionCell v coords r c = (x, .finder) := by
  simp [functionCell_of_not_reserved h, ha, ht, hsep, hf]

theorem functionCell_data (ha : alignmentStamp (matrixSize v) coords r c = none)
    (ht : timingAt (matrixSize v) r c = none) (hsep : separatorStamp (matrixSize v) r c = none)
    (hf : finderStamp (matrixSize v) r c = none) : functionCell v coords r c = (.empty, .data) := by
  simp [functionCell_of_not_reserved h, ha, ht, hsep, hf]

/-- Off the reserved cells a cell is an empty data cell or has the value and the type of a pattern (R202). -/
theorem functionCell_cases_of_not_reserved :
    functionCell v coords r c = (.empty, .data) ∨
      ∃ x t, functionCell v coords r c = (x, t) ∧ x ≠ .empty ∧ t ≠ .empty ∧ t ≠ .version ∧ t ≠ .data := by
  cases ha : alignmentStamp (matrixSize v) coords r c with
  | some x =>
    have hx : x ≠ .empty := fun hx => alignmentStamp_ne_empty _ _ _ _ (hx ▸ ha)
    exact .inr ⟨x, _, functionCell_alignment h ha, hx, by decide⟩
  | none =>
    cases ht : timingAt (matrixSize v) r c with
    | some x =>
      have hx : x ≠ .empty := fun hx => timingAt_ne_empty _ _ _ (hx ▸ ht)
      exact .inr ⟨x, _, functionCell_timing h ha ht, hx, by decide⟩
    | none =>
      cases hsep : separatorStamp (matrixSize v) r c with
      | some x =>
        have hx : x ≠ .empty := fun hx => separatorStamp_ne_empty _ _ _ (hx ▸ hsep)
        exact .inr ⟨x, _, functionCell_separator h ha ht hsep, hx, by decide⟩
      | none =>
        cases hf : finderStamp (matrixSize v) r c with
        | some x =>
          have hx : x ≠ .empty := fun hx => finderStamp_ne_empty _ _ _ (hx ▸ hf)
          exact .inr ⟨x, _, functionCell_finder h ha ht hsep hf, hx, by decide⟩
        | none => exact .inl (functionCell_data h ha ht hsep hf)

end

/-- Everything a cell can be: reserved, an empty data cell, or a cell of a pattern. -/
theorem functionCell_cases (v : Nat) (coords : List Nat) (r c : Nat) :
    functionCell v coords r c = (.dark, .format) ∨ (7 ≤ v ∧ functionCell v coords r c = (.light, .version)) ∨
      functionCell v coords r c = (.light, .format) ∨ functionCell v coords r c = (.empty, .data) ∨
      ∃ x t, functionCell v coords r c = (x, t) ∧ x ≠ .empty ∧ t ≠ .empty ∧ t ≠ .version ∧ t ≠ .data := by
  by_cases hdark : r = matrixSize v - 8 ∧ c = 8
  · obtain ⟨rfl, rfl⟩ := hdark
    exact .inl functionCell_dark
  by_cases hversion : 7 ≤ v ∧ (r, c) ∈ versionCells (matrixSize v)
  · exact .inr (.inl ⟨hversion.1, functionCell_version hdark hversion⟩)
  by_cases hformat : (r, c) ∈ fmt1Cells ∨ (r, c) ∈ fmt2Cells (matrixSize v)
  · exact .inr (.inr (.inl (functionCell_format hdark hversion hformat)))
  · have hfree : ¬ Reserved v r c := not_or.mpr ⟨hdark, not_or.mpr ⟨hversion, hformat⟩⟩
    exact .inr (.inr (.inr (functionCell_cases_of_not_reserved hfree)))

theorem functionCell_type_ne_empty (v : Nat) (coords : List Nat) (r c : Nat) : (functionCell v coords r c).2 ≠ .empty := by
  rcases functionCell_cases v coords r c with h | ⟨-, h⟩ | h | h | ⟨x, t, h, -, htype, -⟩ <;> rw [h]
  case inr.inr.inr.inr => exact htype
  all_goals decide

/-- The cells without a value are the data cells (R202). -/
theorem functionCell_value_eq_empty_iff (v : Nat) (coords : List Nat) (r c : Nat) :
    (functionCell v coords r c).1 = .empty ↔ (functionCell v coords r c).2 = .data := by
  rcases functionCell_cases v coords r c with h | ⟨-, h⟩ | h | h | ⟨x, t, h, hvalue, -, -, htype⟩ <;> rw [h]
  case inr.inr.inr.inr => exact iff_of_false hvalue htype
  all_goals decide

/-- Versions below 7 have no version information (R197). -/
theorem functionCell_type_ne_version (hv : v < 7) : (functionCell v coords r c).2 ≠ .version := by
  rcases functionCell_cases v coords r c with h | ⟨h7, -⟩ | h | h | ⟨x, t, h, -, -, htype, -⟩
  case inr.inl => exact absurd h7 (Nat.not_le.mpr hv)
  all_goals rw [h]
  case inr.inr.inr.inr => exact htype
  all_goals decide

end

/-! ### Cells in plain coordinates -/

theorem alignmentStamp_eq_none {size r c : Nat} {coords : List Nat}
    (h : ∀ p ∈ alignmentCentres size coords, alignmentAt p.1 p.2 r c = none) : alignmentStamp size coords r c = none := by
  refine lastStamp_eq_none.mpr fun y hy => ?_
  obtain ⟨p, hp, rfl⟩ := List.mem_map.mp hy
  exact h p hp

section
variable {v r c : Nat} {coords : List Nat} (hv : 1 ≤ v)
include hv

/-! A cell that no alignment pattern touches (R192 to R194). -/

section
variable (ha : alignmentStamp (matrixSize v) coords r c = none)
include ha

theorem functionCell_of_inFinder {p : Nat × Nat} (hp : p ∈ finderCorners (matrixSize v)) (h : InFinder p.1 p.2 r c) :
    functionCell v coords r c =
      (if max ((r : Int) - (p.1 + 3)).natAbs ((c : Int) - (p.2 + 3)).natAbs = 2 then .light else .dark, .finder) := by
  have hs := le_matrixSize hv
  have hcorner : (p.1 = 0 ∧ p.2 = 0) ∨ (p.1 = 0 ∧ p.2 = matrixSize v - 7) ∨ (p.1 = matrixSize v - 7 ∧ p.2 = 0) := by
    simpa [finderCorners, Prod.ext_iff] using hp
  have hfinder := finderStamp_eq hs hp h
  have hsep := separatorStamp_of_inFinder hs hp h
  rw [absDiff_eq_natAbs, absDiff_eq_natAbs] at hfinder
  unfold InFinder at h
  exact functionCell_finder (mt (reserved_iff hv).mp (by omega)) ha (timingAt_eq_none.mpr (by omega)) hsep hfinder

theorem functionCell_of_separator (hr : r < matrixSize v) (hc : c < matrixSize v)
    (h : (r ≤ 7 ∧ c ≤ 7 ∧ ¬ (r ≤ 6 ∧ c ≤ 6)) ∨ (r ≤ 7 ∧ matrixSize v ≤ c + 8 ∧ ¬ (r ≤ 6 ∧ matrixSize v ≤ c + 7)) ∨
      (matrixSize v ≤ r + 8 ∧ c ≤ 7 ∧ ¬ (matrixSize v ≤ r + 7 ∧ c ≤ 6))) :
    functionCell v coords r c = (.light, .separator) := by
  have hs := le_matrixSize hv
  exact functionCell_separator (mt (reserved_iff hv).mp (by omega)) ha (timingAt_eq_none.mpr (by omega))
    (separatorStamp_eq_light hs hr hc h)

theorem functionCell_of_timing_row (h : r = 6 ∧ 8 ≤ c ∧ c + 9 ≤ matrixSize v) :
    functionCell v coords r c = (if c % 2 = 0 then .dark else .light, .timing) := by
  refine functionCell_timing (mt (reserved_iff hv).mp (by omega)) ha ?_
  rw [timingAt, if_pos h]
  simp [moduleOfBit]

theorem functionCell_of_timing_col (h : c = 6 ∧ 8 ≤ r ∧ r + 9 ≤ matrixSize v) :
    functionCell v coords r c = (if r % 2 = 0 then .dark else .light, .timing) := by
  refine functionCell_timing (mt (reserved_iff hv).mp (by omega)) ha ?_
  rw [timingAt, if_neg (by omega), if_pos h]
  simp [moduleOfBit]

end

/-- The reserved cells of the format strips (R196). -/
theorem functionCell_of_format
    (h : ((r = 8 ∧ c ≤ 8 ∧ c ≠ 6) ∨ (c = 8 ∧ r ≤ 8 ∧ r ≠ 6)) ∨
      (c = 8 ∧ matrixSize v ≤ r + 7 ∧ r < matrixSize v) ∨ (r = 8 ∧ matrixSize v ≤ c + 8 ∧ c < matrixSize v)) :
    functionCell v coords r c = (.light, .format) := by
  have hs := le_matrixSize hv
  have hsize := matrixSize_eq v
  refine functionCell_format (by omega) ?_ ?_
  · rw [mem_versionCells hs]
    omega
  · rw [mem_fmt1Cells, mem_fmt2Cells hs]
    exact h

/-- The cells of the version blocks, from version 7 on (R197). -/
theorem functionCell_of_version (h7 : 7 ≤ v)
    (h : (r ≤ 5 ∧ matrixSize v ≤ c + 11 ∧ c + 9 ≤ matrixSize v) ∨
      (c ≤ 5 ∧ matrixSize v ≤ r + 11 ∧ r + 9 ≤ matrixSize v)) :
    functionCell v coords r c = (.light, .version) := by
  have hs := le_matrixSize hv
  exact functionCell_version (by omega) ⟨h7, (mem_versionCells hs).mpr h⟩

end

/-! ### The alignment patterns (R195, R322 (d)) -/

theorem mem_alignmentCentres {size : Nat} {coords : List Nat} {p : Nat × Nat} :
    p ∈ alignmentCentres size coords ↔
      p.1 ∈ coords ∧ p.2 ∈ coords ∧ p ≠ (6, 6) ∧ p ≠ (6, size - 7) ∧ p ≠ (size - 7, 6) := by
  obtain ⟨p1, p2⟩ := p
  simp only [alignmentCentres, List.mem_filter, List.mem_flatMap, List.mem_map, decide_eq_true_eq, Prod.mk.injEq]
  constructor
  · rintro ⟨⟨_, h1, _, h2, rfl, rfl⟩, h⟩
    exact ⟨h1, h2, h⟩
  · rintro ⟨h1, h2, h⟩
    exact ⟨⟨_, h1, _, h2, rfl, rfl⟩, h⟩

/-- Patterns with these centres do not touch (R322 (d)). -/
def Apart (p q : Nat × Nat) : Prop := 5 ≤ absDiff p.1 q.1 ∨ 5 ≤ absDiff p.2 q.2

theorem apart_symm {p q : Nat × Nat} (h : Apart p q) : Apart q p := by
  unfold Apart absDiff at h ⊢
  omega

/-- No cell is near two centres apart. -/
theorem eq_of_near {centres : List (Nat × Nat)} (hapart : centres.Pairwise Apart) {p q : Nat × Nat} (hp : p ∈ centres)
    (hq : q ∈ centres) {r c : Nat} (hpnear : max (absDiff r p.1) (absDiff c p.2) ≤ 2)
    (hqnear : max (absDiff r q.1) (absDiff c q.2) ≤ 2) : q = p := by
  by_contra hne
  have hsymm : Std.Symm Apart := ⟨fun _ _ => apart_symm⟩
  have hfar : Apart q p := hapart.forall hq hp hne
  unfold Apart at hfar
  unfold absDiff at hfar hpnear hqnear
  omega

/-- With well-formed coordinates an alignment pattern stands on each of its cells. -/
theorem functionCell_of_alignPremise {v r c : Nat} {coords : List Nat} (hpremise : AlignPremise v coords)
    {p : Nat × Nat} (hp : p ∈ alignmentCentres (matrixSize v) coords)
    (hnear : max (absDiff r p.1) (absDiff c p.2) ≤ 2) :
    functionCell v coords r c =
      (if max (absDiff r p.1) (absDiff c p.2) = 1 then .light else .dark, .alignment) := by
  obtain ⟨-, -, -, hplace, hapart⟩ := hpremise
  obtain ⟨hr, -, hc, -, hcells⟩ := hplace p hp
  have hreserved : ¬ Reserved v r c := by
    have hoffsets : r + 2 - p.1 < 5 ∧ p.1 - 2 + (r + 2 - p.1) = r ∧ c + 2 - p.2 < 5 ∧ p.2 - 2 + (c + 2 - p.2) = c := by
      unfold absDiff at hnear
      omega
    obtain ⟨hi, hri, hj, hcj⟩ := hoffsets
    have hfree := hcells _ hi _ hj
    rw [hri, hcj] at hfree
    intro hres
    rcases functionCell_type_of_reserved (coords := []) hres with h | h <;> simp [h] at hfree
  refine functionCell_alignment hreserved ?_
  refine lastStamp_eq_some (List.mem_map.mpr ⟨p, hp, alignmentAt_of_near hnear⟩) fun y hy => ?_
  obtain ⟨q, hq, rfl⟩ := List.mem_map.mp hy
  by_cases hqnear : max (absDiff r q.1) (absDiff c q.2) ≤ 2
  · rw [eq_of_near hapart hp hq hnear hqnear]
    exact .inr (alignmentAt_of_near hnear)
  · exact .inl (if_neg hqnear)

/-- Settles O55: the reserved cells come before every pattern, and off them the first pattern that touches the cell stands. -/
theorem functionalPatterns : Obligations.FunctionalPatterns := by
  intro v coords hv h40 size cell
  have hs : 21 ≤ size := le_matrixSize hv
  have hsize : matrixSize v = size := rfl
  refine ⟨fun r c hr hc hnone => ?_, fun c hc => ?_, fun r hr => ?_, functionCell_dark, fun h7 i hi => ?_,
    fun hv7 r c => functionCell_type_ne_version hv7, fun p => mem_alignmentCentres, fun hpremise p hp r c hnear => ?_⟩
  · have ha : alignmentStamp (matrixSize v) coords r c = none := alignmentStamp_eq_none hnone
    refine ⟨fun p hp h1 h2 h3 h4 => functionCell_of_inFinder hv ha hp ⟨h1, h2, h3, h4⟩, fun h => ?_,
      fun h6 h8 h9 => functionCell_of_timing_row hv ha ⟨h6, h8, ?_⟩,
      fun h6 h8 h9 => functionCell_of_timing_col hv ha ⟨h6, h8, ?_⟩⟩
    · exact functionCell_of_separator hv ha hr hc (by omega)
    · omega
    · omega
  · exact functionCell_of_format hv (by omega)
  · exact functionCell_of_format hv (by omega)
  · have hblock : i / 3 ≤ 5 ∧ size ≤ size - 11 + i % 3 + 11 ∧ size - 11 + i % 3 + 9 ≤ size := by omega
    exact ⟨functionCell_of_version hv h7 (.inl hblock), functionCell_of_version hv h7 (.inr hblock)⟩
  · rw [← absDiff_eq_natAbs, ← absDiff_eq_natAbs] at hnear ⊢
    exact functionCell_of_alignPremise hpremise hp hnear

end Sys2Proof.Machine
end

section
/-! The scan order (44_matrix_rasterizer.md R207, R209): the zigzag walk visits every column but the timing column 6, each
row of it once, so it lists the data cells, each once. -/

namespace Sys2Proof.Machine

/-! ### Counting the data cells of a matrix (R202) -/

theorem countData_buildGrid (size : Nat) (f : Nat → Nat → ModuleType) :
    countData (buildGrid size f) = (List.range size ×ˢ List.range size).countP fun p => f p.1 p.2 == .data := by
  simp [countData, buildGrid, SProd.sprod, List.product, List.countP_flatMap, List.countP_map, Function.comp_def]

theorem countData_buildGrid_le (size : Nat) (f : Nat → Nat → ModuleType) : countData (buildGrid size f) ≤ size * size := by
  rw [countData_buildGrid]
  refine List.countP_le_length.trans_eq ?_
  rw [List.length_product, List.length_range]

section
variable {types : Grid ModuleType} {size r c : Nat}

/-! ### A pair of columns -/

theorem mem_scanRows {up : Bool} : r ∈ scanRows size up ↔ r < size := by
  unfold scanRows
  split <;> simp

theorem nodup_scanRows (size : Nat) (up : Bool) : (scanRows size up).Nodup := by
  unfold scanRows
  split
  · exact List.nodup_reverse.mpr List.nodup_range
  · exact List.nodup_range

theorem mem_scanPair {col : Nat} {up : Bool} :
    (r, c) ∈ scanPair types size col up ↔ r < size ∧ (c = col ∨ c = col - 1) ∧ cellAt .empty types r c = .data := by
  simp only [scanPair, List.mem_flatMap, mem_scanRows, List.mem_filter, List.mem_cons, Prod.mk.injEq, List.not_mem_nil,
    or_false, beq_iff_eq]
  constructor
  · rintro ⟨row, hrow, ⟨rfl, h⟩ | ⟨rfl, h⟩, hdata⟩
    · exact ⟨hrow, .inl h, hdata⟩
    · exact ⟨hrow, .inr h, hdata⟩
  · rintro ⟨hr, h | h, hdata⟩
    · exact ⟨r, hr, .inl ⟨rfl, h⟩, hdata⟩
    · exact ⟨r, hr, .inr ⟨rfl, h⟩, hdata⟩

theorem nodup_scanPair {col : Nat} (hcol : 0 < col) (up : Bool) : (scanPair types size col up).Nodup := by
  refine List.nodup_flatMap.mpr ⟨fun row _ => List.Nodup.filter _ ?_, ?_⟩
  · have hne : col ≠ col - 1 := by omega
    simp [hne]
  · refine (nodup_scanRows size up).imp fun {a b} hab p hpa hpb => hab ?_
    have hrow : ∀ row, p ∈ [(row, col), (row, col - 1)].filter (fun q => cellAt .empty types q.1 q.2 == .data) →
        p.1 = row := fun row hp => by
      rcases List.mem_pair.mp (List.mem_of_mem_filter hp) with rfl | rfl <;> rfl
    rw [← hrow a hpa, hrow b hpb]

/-! ### The walk over the column pairs -/

/-- The right column of the pair the walk takes at column `col`: the timing column is skipped (R207). -/
def rightColumn (col : Nat) : Nat := if col = 6 then 5 else col

/-- The columns at which the walk stands between two pairs, 0 at its end. -/
def WalkColumn (col : Nat) : Prop := col = 0 ∨ (col ≤ 5 ∧ col % 2 = 1) ∨ (6 ≤ col ∧ col % 2 = 0)

theorem scanFrom_zero (fuel : Nat) (up : Bool) : scanFrom types size fuel 0 up = [] := by
  cases fuel <;> rfl

theorem scanFrom_succ {col : Nat} (hcol : col ≠ 0) (fuel : Nat) (up : Bool) :
    scanFrom types size (fuel + 1) col up =
      scanPair types size (rightColumn col) up ++ scanFrom types size fuel (rightColumn col - 2) (!up) := by
  rw [scanFrom, if_neg hcol, rightColumn]

theorem WalkColumn.next {col : Nat} (h : WalkColumn col) (hcol : col ≠ 0) :
    0 < rightColumn col ∧ rightColumn col ≤ col ∧ WalkColumn (rightColumn col - 2) := by
  unfold rightColumn WalkColumn at *
  split <;> omega

/-- The columns left of and at `col` but the timing column are those of the pair and those the walk still comes to. -/
theorem WalkColumn.split {col : Nat} (h : WalkColumn col) (hcol : col ≠ 0) :
    (c ≤ col ∧ c ≠ 6) ↔
      (c = rightColumn col ∨ c = rightColumn col - 1) ∨ (rightColumn col - 2 ≠ 0 ∧ c ≤ rightColumn col - 2 ∧ c ≠ 6) := by
  unfold rightColumn WalkColumn at *
  split <;> omega

theorem mem_scanFrom {fuel col : Nat} {up : Bool} (hwalk : WalkColumn col) (hfuel : col ≤ fuel) :
    (r, c) ∈ scanFrom types size fuel col up ↔
      r < size ∧ (col ≠ 0 ∧ c ≤ col ∧ c ≠ 6) ∧ cellAt .empty types r c = .data := by
  induction fuel generalizing col up with
  | zero =>
    obtain rfl := Nat.le_zero.mp hfuel
    simp [scanFrom_zero]
  | succ fuel ih =>
    by_cases hcol : col = 0
    · simp [hcol, scanFrom_zero]
    · obtain ⟨hpos, hle, hnext⟩ := hwalk.next hcol
      rw [scanFrom_succ hcol, List.mem_append, mem_scanPair, ih hnext (by omega), hwalk.split hcol]
      tauto

theorem nodup_scanFrom {fuel col : Nat} {up : Bool} (hwalk : WalkColumn col) (hfuel : col ≤ fuel) :
    (scanFrom types size fuel col up).Nodup := by
  induction fuel generalizing col up with
  | zero => exact List.nodup_nil
  | succ fuel ih =>
    by_cases hcol : col = 0
    · rw [hcol, scanFrom_zero]
      exact List.nodup_nil
    · obtain ⟨hpos, hle, hnext⟩ := hwalk.next hcol
      rw [scanFrom_succ hcol]
      refine (nodup_scanPair hpos up).append (ih hnext (by omega)) fun p hpair hrest => ?_
      obtain ⟨-, hcolumn, -⟩ := mem_scanPair.mp hpair
      obtain ⟨-, ⟨hne, hlater, -⟩, -⟩ := (mem_scanFrom hnext (by omega)).mp hrest
      omega

end

/-! ### The scan order of a version's matrix -/

section
variable {v r c : Nat} {coords : List Nat}

theorem walkColumn_matrixSize (v : Nat) : WalkColumn (matrixSize v - 1) := by
  unfold WalkColumn matrixSize
  omega

theorem cellAt_typeGrid (hr : r < matrixSize v) (hc : c < matrixSize v) :
    cellAt .empty (typeGrid v coords) r c = (functionCell v coords r c).2 := cellAt_buildGrid _ hr hc

theorem cellAt_functionGrid (hr : r < matrixSize v) (hc : c < matrixSize v) :
    cellAt .empty (functionGrid v coords) r c = (functionCell v coords r c).1 := cellAt_buildGrid _ hr hc

theorem nodup_scanOrder (types : Grid ModuleType) (v : Nat) : (scanOrder types (matrixSize v)).Nodup :=
  nodup_scanFrom (walkColumn_matrixSize v) (Nat.sub_le _ _)

/-- No data cell stands in the timing column, so the walk comes to all of them. -/
theorem mem_scanOrder (hv : 1 ≤ v) :
    (r, c) ∈ scanOrder (typeGrid v coords) (matrixSize v) ↔
      r < matrixSize v ∧ c < matrixSize v ∧ cellAt .empty (typeGrid v coords) r c = .data := by
  have hs := le_matrixSize hv
  rw [scanOrder, mem_scanFrom (walkColumn_matrixSize v) (Nat.sub_le _ _)]
  constructor
  · rintro ⟨hr, ⟨-, hc, -⟩, hdata⟩
    exact ⟨hr, by omega, hdata⟩
  · rintro ⟨hr, hc, hdata⟩
    have htype : (functionCell v coords r c).2 = .data := cellAt_typeGrid hr hc ▸ hdata
    obtain ⟨-, -, -, -, h6, -⟩ := (functionCell_data_iff coords hv hr hc).mp htype
    exact ⟨hr, ⟨by omega, by omega, h6⟩, hdata⟩

/-- The scan order is a rearrangement of the data cells read row by row. -/
theorem length_scanOrder (hv : 1 ≤ v) :
    (scanOrder (typeGrid v coords) (matrixSize v)).length = countData (typeGrid v coords) := by
  have hperm : (scanOrder (typeGrid v coords) (matrixSize v)).Perm
      ((List.range (matrixSize v) ×ˢ List.range (matrixSize v)).filter fun p =>
        (functionCell v coords p.1 p.2).2 == .data) := by
    refine (List.perm_ext_iff_of_nodup (nodup_scanOrder _ v) ((List.nodup_range.product List.nodup_range).filter _)).mpr ?_
    rintro ⟨r, c⟩
    rw [mem_scanOrder hv, List.mem_filter, List.mem_product, List.mem_range, List.mem_range, beq_iff_eq, and_assoc]
    refine and_congr_right fun hr => and_congr_right fun hc => ?_
    rw [cellAt_typeGrid hr hc]
  rw [hperm.length_eq, ← List.countP_eq_length_filter, typeGrid, countData_buildGrid]

theorem scanOrder_inside (hv : 1 ≤ v) :
    ∀ p ∈ scanOrder (typeGrid v coords) (matrixSize v), p.1 < matrixSize v ∧ p.2 < matrixSize v := by
  intro p hp
  obtain ⟨hr, hc, -⟩ := (mem_scanOrder hv).mp hp
  exact ⟨hr, hc⟩

end

/-- Settles O54: the walk lists the data cells once each, and placing bits on a list of different cells sets these. -/
theorem scanCoversDataCells : Obligations.ScanCoversDataCells := by
  intro v coords hv h40 size order
  refine ⟨nodup_scanOrder _ v, length_scanOrder hv, fun r c => mem_scanOrder hv, fun bits hbits => ?_⟩
  refine ⟨fun i hi => ?_, fun r c hrc => cellAt_placeBits_of_notMem hrc _ bits⟩
  exact cellAt_placeBits_getD (squareGrid_buildGrid _ _) (nodup_scanOrder _ v) (scanOrder_inside hv) hi (hbits.symm ▸ hi)

end Sys2Proof.Machine
end

section
/-! MATINIT, MATPLACE and INFOSTAMP (44_matrix_rasterizer.md R202 to R214): what their rules write. -/

namespace Sys2Proof.Machine

/-! ### MATINIT (R202, R203) -/

theorem exec_matinit {s : State} (hhalt : s.halt = false) (hready : s.valid.getLsbD ILV = true) :
    exec .matinit s = .next (complete (initialisedState s)) := by
  rw [exec_runs (i := .matinit) hhalt rfl hready, ruleOf, ruleMatinit_done, conclude]

section
variable {s : State} (h40 : s.version.toNat ≤ 40)
include h40

theorem initialisedState_size : (initialisedState s).size.toNat = matrixSize s.version.toNat := by
  refine Nat.mod_eq_of_lt ?_
  rw [matrixSize_eq]
  omega

theorem initialisedState_ndata :
    (initialisedState s).ndata.toNat = countData (typeGrid s.version.toNat (alignOf s.rom s.version.toNat)) := by
  refine Nat.mod_eq_of_lt ((countData_buildGrid_le _ _).trans_lt ?_)
  calc matrixSize s.version.toNat * matrixSize s.version.toNat ≤ 177 * 177 := by
        rw [matrixSize_eq]
        exact Nat.mul_le_mul (by omega) (by omega)
    _ < 2 ^ 15 := by decide

end

/-- Settles O39: both matrices are built cell by cell, and every register holds its number. -/
theorem matinitCompletes : Obligations.MatinitCompletes := by
  intro s hhalt
  refine ⟨fun hready => ⟨_, exec_matinit hhalt hready, rfl, fun h1 h40 => ?_⟩, fun hnot => exec_notReady hhalt rfl hnot⟩
  simp only [complete_size, complete_mtype, complete_mfunc, complete_ndata, initialisedState_size h40,
    initialisedState_ndata h40]
  refine ⟨rfl, squareGrid_buildGrid _ _, squareGrid_buildGrid _ _, rfl, fun r c hr hc => ?_, ?_⟩
  · have htype : cellAt .empty (initialisedState s).mtype r c = _ := cellAt_typeGrid hr hc
    have hvalue : cellAt .empty (initialisedState s).mfunc r c = _ := cellAt_functionGrid hr hc
    rw [htype, hvalue]
    exact ⟨rfl, functionCell_type_ne_empty _ _ _ _, functionCell_value_eq_empty_iff _ _ _ _⟩
  · have hs := le_matrixSize h1
    have htype : cellAt .empty (initialisedState s).mtype (matrixSize s.version.toNat - 8) 8 = _ :=
      cellAt_typeGrid (by omega) (by omega)
    have hvalue : cellAt .empty (initialisedState s).mfunc (matrixSize s.version.toNat - 8) 8 = _ :=
      cellAt_functionGrid (by omega) (by omega)
    rw [htype, hvalue, functionCell_dark]
    exact ⟨rfl, rfl⟩

/-! ### MATPLACE (R205, R206, R208) -/

section
variable {s : State} (hhalt : s.halt = false) (hready : s.valid.getLsbD MINIT = true)
include hhalt hready

theorem exec_matplace_of_remainderOk (h : remainderOk s) : exec .matplace s = .next (complete (placedState s)) := by
  rw [exec_runs (i := .matplace) hhalt rfl hready, ruleOf, ruleMatplace_done h, conclude]

theorem exec_matplace_of_not_remainderOk (h : ¬ remainderOk s) :
    exec .matplace s = .next { (clearStages PLACED s).withError 3 0x35000000 with halt := true } := by
  have hraise := not_not.mp (mt (remainderOk_iff s).mpr h)
  rw [exec_runs (i := .matplace) hhalt rfl hready, ruleOf, ruleMatplace, if_pos hraise, conclude, raise,
    clearStages_halt, hhalt]
  exact rfl

end

/-- Settles O40: the rule completes where the remainder is in 0..7. -/
theorem matplaceResult : Obligations.MatplaceResult := by
  intro s hhalt
  refine ⟨fun hready => ⟨fun hle hge => ?_, fun hout => ?_⟩, fun hnot => exec_notReady hhalt rfl hnot⟩
  · exact ⟨_, exec_matplace_of_remainderOk hhalt hready ⟨hle, by omega⟩, rfl⟩
  · have hnot : ¬ remainderOk s := by
      unfold remainderOk
      omega
    exact ⟨_, exec_matplace_of_not_remainderOk hhalt hready hnot, rfl⟩

/-! ### The cells and the bits of format and version information (R67, R68, R211, R212) -/

theorem formatBits_getD (f : BitVec 15) {k : Nat} (hk : k < 15) : (formatBits f).getD k false = f.getLsbD (14 - k) := by
  simp [formatBits, hk]

theorem versionBits_getD (w : BitVec 18) {i : Nat} (hi : i < 18) :
    (versionBits w ++ versionBits w).getD i false = w.getLsbD i ∧
      (versionBits w ++ versionBits w).getD (18 + i) false = w.getLsbD i := by
  simp [versionBits, List.getElem?_append, hi]

theorem versionCells_getD (size : Nat) {i : Nat} (hi : i < 18) :
    (versionCells size).getD i (0, 0) = versionCell size i ∧
      (versionCells size).getD (18 + i) (0, 0) = (versionCell size i).swap := by
  simp [versionCells, List.getElem?_append, hi]

theorem getD_fmt1Cells_mem {k : Nat} (hk : k < 15) : fmt1Cells.getD k (0, 0) ∈ fmt1Cells := by
  rw [List.getD_eq_getElem _ _ hk]
  exact List.getElem_mem hk

theorem getD_fmt2Cells_mem (size : Nat) {k : Nat} (hk : k < 15) : (fmt2Cells size).getD k (0, 0) ∈ fmt2Cells size := by
  rw [List.getD_eq_getElem _ _ hk]
  exact List.getElem_mem hk

theorem nodup_fmt1Cells : fmt1Cells.Nodup := by decide

section
variable {size : Nat} (hs : 21 ≤ size)
include hs

theorem fmt1Cells_inside : ∀ p ∈ fmt1Cells, p.1 < size ∧ p.2 < size := by
  rintro ⟨r, c⟩ hp
  rw [mem_fmt1Cells] at hp
  omega

theorem fmt2Cells_inside : ∀ p ∈ fmt2Cells size, p.1 < size ∧ p.2 < size := by
  rintro ⟨r, c⟩ hp
  rw [mem_fmt2Cells hs] at hp
  omega

theorem versionCells_inside : ∀ p ∈ versionCells size, p.1 < size ∧ p.2 < size := by
  rintro ⟨r, c⟩ hp
  rw [mem_versionCells hs] at hp
  omega

theorem nodup_fmt2Cells : (fmt2Cells size).Nodup := by
  simp only [fmt2Cells, List.nodup_cons, List.mem_cons, Prod.mk.injEq, List.not_mem_nil, or_false, not_false_eq_true,
    List.nodup_nil, and_true]
  omega

theorem nodup_versionCells : (versionCells size).Nodup := by
  have hblock : ((List.range 18).map (versionCell size)).Nodup :=
    (List.nodup_map_iff_inj_on List.nodup_range).mpr fun i _ j _ hij => by
      simp only [versionCell, Prod.mk.injEq] at hij
      omega
  have htranspose : ((List.range 18).map fun i => (versionCell size i).swap).Nodup := by
    rw [← Function.comp_def, ← List.map_map]
    exact hblock.map Prod.swap_injective
  refine hblock.append htranspose fun p hp hq => ?_
  obtain ⟨i, hi, rfl⟩ := List.mem_map.mp hp
  obtain ⟨j, hj, hij⟩ := List.mem_map.mp hq
  simp only [versionCell, Prod.swap, Prod.mk.injEq, List.mem_range] at hi hj hij
  omega

theorem notMem_fmt2Cells_of_fmt1 {p : Nat × Nat} (h : p ∈ fmt1Cells) : p ∉ fmt2Cells size := by
  obtain ⟨r, c⟩ := p
  rw [mem_fmt1Cells] at h
  rw [mem_fmt2Cells hs]
  omega

theorem notMem_versionCells_of_format {p : Nat × Nat} (h : p ∈ fmt1Cells ∨ p ∈ fmt2Cells size) :
    p ∉ versionCells size := by
  obtain ⟨r, c⟩ := p
  rw [mem_fmt1Cells, mem_fmt2Cells hs] at h
  rw [mem_versionCells hs]
  omega

/-! ### Stamping (R213) -/

variable {g : Grid Module} (hg : SquareGrid size g) (f : BitVec 15) (w : BitVec 18)
include hg

theorem cellAt_stampFormat_fmt1 {k : Nat} (hk : k < 15) :
    cellAt .empty (stampFormat g size f) (fmt1Cells.getD k (0, 0)).1 (fmt1Cells.getD k (0, 0)).2
      = moduleOfBit (f.getLsbD (14 - k)) := by
  have hkept : ∀ p ∈ fmt1Cells, cellAt .empty (stampFormat g size f) p.1 p.2
      = cellAt .empty (placeBits g fmt1Cells (formatBits f)) p.1 p.2 := fun p hp =>
    cellAt_placeBits_of_notMem (notMem_fmt2Cells_of_fmt1 hs hp) _ _
  rw [hkept _ (getD_fmt1Cells_mem hk), cellAt_placeBits_getD hg nodup_fmt1Cells (fmt1Cells_inside hs) hk
    (by simpa [formatBits] using hk), formatBits_getD f hk]

theorem cellAt_stampFormat_fmt2 {k : Nat} (hk : k < 15) :
    cellAt .empty (stampFormat g size f) ((fmt2Cells size).getD k (0, 0)).1 ((fmt2Cells size).getD k (0, 0)).2
      = moduleOfBit (f.getLsbD (14 - k)) := by
  rw [stampFormat, cellAt_placeBits_getD (hg.placeBits _ _) (nodup_fmt2Cells hs) (fmt2Cells_inside hs) hk
    (by simpa [formatBits] using hk), formatBits_getD f hk]

theorem cellAt_stampVersion {i : Nat} (hi : i < 18) :
    cellAt .empty (stampVersion g size w) (i / 3) (size - 11 + i % 3) = moduleOfBit (w.getLsbD i) ∧
      cellAt .empty (stampVersion g size w) (size - 11 + i % 3) (i / 3) = moduleOfBit (w.getLsbD i) := by
  obtain ⟨hcell, hcell'⟩ := versionCells_getD size hi
  obtain ⟨hbit, hbit'⟩ := versionBits_getD w hi
  have hat : ∀ j < 36, cellAt .empty (stampVersion g size w) ((versionCells size).getD j (0, 0)).1
      ((versionCells size).getD j (0, 0)).2 = moduleOfBit ((versionBits w ++ versionBits w).getD j false) := fun j hj =>
    cellAt_placeBits_getD hg (nodup_versionCells hs) (versionCells_inside hs) (by simpa [versionCells] using hj)
      (by simpa [versionBits] using hj)
  have hblock := hat i (by omega)
  have htranspose := hat (18 + i) (by omega)
  rw [hcell, hbit] at hblock
  rw [hcell', hbit'] at htranspose
  exact ⟨hblock, htranspose⟩

end

theorem cellAt_stampFormat_other {size r c : Nat} (h1 : (r, c) ∉ fmt1Cells) (h2 : (r, c) ∉ fmt2Cells size) (g : Grid Module)
    (f : BitVec 15) : cellAt .empty (stampFormat g size f) r c = cellAt .empty g r c := by
  rw [stampFormat, cellAt_placeBits_of_notMem h2, cellAt_placeBits_of_notMem h1]

theorem cellAt_stampVersion_other {size r c : Nat} (h : (r, c) ∉ versionCells size) (g : Grid Module) (w : BitVec 18) :
    cellAt .empty (stampVersion g size w) r c = cellAt .empty g r c :=
  cellAt_placeBits_of_notMem h _ _

/-- MFINAL from the selected candidate: format information, and from version 7 on version information (R213). -/
def finalGrid (version : BitVec 6) (f : BitVec 15) (g : Grid Module) : Grid Module :=
  if 7 ≤ version.toNat then
    stampVersion (stampFormat g (matrixSize version.toNat) f) (matrixSize version.toNat) (vercode version)
  else stampFormat g (matrixSize version.toNat) f

theorem stampedState_mfinal (s : State) :
    (stampedState s).mfinal = finalGrid s.version (fmtcode s.level s.masksel) (selectedCandidate s) := by
  by_cases h7 : 7 ≤ s.version.toNat <;> simp [stampedState, finalGrid, h7]

section
variable {version : BitVec 6} {f : BitVec 15} {g : Grid Module}

/-- The version blocks leave the format strips as they are. -/
theorem cellAt_finalGrid_of_format (hv : 1 ≤ version.toNat) {p : Nat × Nat}
    (h : p ∈ fmt1Cells ∨ p ∈ fmt2Cells (matrixSize version.toNat)) :
    cellAt .empty (finalGrid version f g) p.1 p.2 = cellAt .empty (stampFormat g (matrixSize version.toNat) f) p.1 p.2 := by
  unfold finalGrid
  split
  · exact cellAt_stampVersion_other (notMem_versionCells_of_format (le_matrixSize hv) h) _ _
  · rfl

theorem cellAt_finalGrid_other {r c : Nat} (h1 : (r, c) ∉ fmt1Cells) (h2 : (r, c) ∉ fmt2Cells (matrixSize version.toNat))
    (h3 : 7 ≤ version.toNat → (r, c) ∉ versionCells (matrixSize version.toNat)) :
    cellAt .empty (finalGrid version f g) r c = cellAt .empty g r c := by
  unfold finalGrid
  split
  · next h7 => rw [cellAt_stampVersion_other (h3 h7), cellAt_stampFormat_other h1 h2]
  · exact cellAt_stampFormat_other h1 h2 _ _

end

theorem exec_infostamp {s : State} (hhalt : s.halt = false) (hready : s.valid.getLsbD SELD = true) :
    exec .infostamp s = .next (complete (stampedState s)) := by
  rw [exec_runs (i := .infostamp) hhalt rfl hready, ruleOf, ruleInfostamp_done, conclude]

/-- Settles O43: the strips and the blocks have no cell in common, so each keeps the bits stamped on it. -/
theorem infostampCompletes : Obligations.InfostampCompletes := by
  intro s hhalt
  refine ⟨fun hready => ⟨_, exec_infostamp hhalt hready, rfl, fun h1 h40 hsquare => ?_⟩,
    fun hnot => exec_notReady hhalt rfl hnot⟩
  have hs := le_matrixSize h1
  rw [complete_mfinal, stampedState_mfinal]
  refine ⟨fun k => ⟨?_, ?_⟩, fun h7 i => ?_, fun r c hf1 hf2 hver => cellAt_finalGrid_other hf1 hf2 hver⟩
  · exact (cellAt_finalGrid_of_format h1 (.inl (getD_fmt1Cells_mem k.isLt))).trans
      (cellAt_stampFormat_fmt1 hs hsquare _ k.isLt)
  · exact (cellAt_finalGrid_of_format h1 (.inr (getD_fmt2Cells_mem _ k.isLt))).trans
      (cellAt_stampFormat_fmt2 hs hsquare _ k.isLt)
  · rw [finalGrid, if_pos h7]
    exact cellAt_stampVersion hs (hsquare.placeBits _ _ |>.placeBits _ _) _ i.isLt

end Sys2Proof.Machine
end

section
/-! The final matrix is complete (44_matrix_rasterizer.md R209, R214): the stream fills every data cell, and no later stage
empties one. -/

namespace Sys2Proof.Machine

/-- A `size × size` matrix with no empty cell. -/
def Filled (size : Nat) (g : Grid Module) : Prop :=
  SquareGrid size g ∧ ∀ r c, r < size → c < size → cellAt .empty g r c ≠ .empty

theorem Filled.placeBits {size : Nat} {g : Grid Module} (h : Filled size g) (cells : List (Nat × Nat)) (bits : List Bool) :
    Filled size (placeBits g cells bits) := by
  obtain ⟨hsquare, hcells⟩ := h
  exact ⟨hsquare.placeBits cells bits, fun r c hr hc => cellAt_placeBits_ne_empty hsquare hr hc (hcells r c hr hc) cells bits⟩

/-! ### The grids of the stages (R209, R213, R234) -/

/-- A stream as long as the scan order fills MATINIT's matrix. -/
theorem filled_placeBits_scanOrder {v : Nat} {coords : List Nat} (hv : 1 ≤ v) {bits : List Bool}
    (hbits : countData (typeGrid v coords) ≤ bits.length) :
    Filled (matrixSize v) (placeBits (functionGrid v coords) (scanOrder (typeGrid v coords) (matrixSize v)) bits) := by
  have hsquare : SquareGrid (matrixSize v) (functionGrid v coords) := squareGrid_buildGrid _ _
  refine ⟨hsquare.placeBits _ _, fun r c hr hc => ?_⟩
  by_cases hdata : cellAt .empty (typeGrid v coords) r c = .data
  · obtain ⟨b, hb⟩ := cellAt_placeBits_of_mem hsquare (nodup_scanOrder _ v) (scanOrder_inside hv)
      ((length_scanOrder hv).trans_le hbits) ((mem_scanOrder hv).mpr ⟨hr, hc, hdata⟩)
    rw [hb]
    exact moduleOfBit_ne_empty b
  · refine cellAt_placeBits_ne_empty hsquare hr hc ?_ _ _
    rw [cellAt_functionGrid hr hc]
    rw [cellAt_typeGrid hr hc] at hdata
    exact mt (functionCell_value_eq_empty_iff v coords r c).mp hdata

theorem invertModule_eq_empty_iff {x : Module} : invertModule x = .empty ↔ x = .empty := by
  cases x <;> decide

theorem Filled.candidate {size : Nat} {mpre : Grid Module} (h : Filled size mpre) (mtype : Grid ModuleType) (p : Nat) :
    Filled size (candidate mpre mtype size p) := by
  refine ⟨squareGrid_buildGrid _ _, fun r c hr hc => ?_⟩
  have hcell := h.2 r c hr hc
  rw [Machine.candidate, cellAt_buildGrid _ hr hc]
  dsimp only
  split
  · exact mt invertModule_eq_empty_iff.mp hcell
  · exact hcell

theorem candidates_getElem (s : State) {p : Nat} (hp : p < 8) :
    (candidates s)[p] = candidate s.mpre s.mtype s.size.toNat p := by
  interval_cases p <;> rfl

theorem Filled.finalGrid {version : BitVec 6} {g : Grid Module} (h : Filled (matrixSize version.toNat) g) (f : BitVec 15) :
    Filled (matrixSize version.toNat) (finalGrid version f g) := by
  have hformat : Filled (matrixSize version.toNat) (stampFormat g (matrixSize version.toNat) f) :=
    (h.placeBits _ _).placeBits _ _
  unfold Machine.finalGrid
  split
  · exact hformat.placeBits _ _
  · exact hformat

/-! ### The stages behind a set bit STAMPED (R24, R88) -/

theorem ControlInv.isValid_of_stamped {s : State} (h : ControlInv s) (hstamped : isValid STAMPED s = true) {k : Nat}
    (h1 : 1 ≤ k) (h9 : k ≤ 9) : isValid k s = true := by
  induction h9 using Nat.decreasingInduction with
  | self => exact hstamped
  | of_succ k hk ih => exact h.chain k h1 (by omega) (ih (by omega))

theorem Coherent.stageDone {s : State} (h : Coherent s) {k : Nat} (h1 : 1 ≤ k) (h9 : k ≤ 9) (hk : isValid k s = true) :
    stageOk k s ∧ outputsOf k (stageDone k s) = outputsOf k s := by
  obtain ⟨-, hhonest⟩ := (coherent_iff s).mp h k h1 h9 hk
  exact (honest_stageRule_iff h1 h9 s).mp hhonest

/-! ### The stream is as long as the data cells are many (R156, R158, R205, R206) -/

theorem blockLengths_length (p : Plan) : (blockLengths p.groups).length = planBlocks p := by
  simp [blockLengths, planBlocks, List.length_flatMap]

theorem length_columns (blocks : List (List Byte)) : (columns blocks).length = blocks.flatten.length :=
  (columns_perm blocks).length_eq

/-- The check codewords of all blocks. -/
theorem length_flatten_checkBlocks (blocks : List (List Byte)) (n : Nat) :
    (blocks.map fun d => rsecc d n).flatten.length = blocks.length * n := by
  simp [List.length_flatten, Function.comp_def]

theorem length_placementStream (icw : List Byte) (r : Nat) : (placementStream icw r).length = 8 * icw.length + r := by
  simp [placementStream, List.length_flatMap, Nat.mul_comm]

section
variable {s : State}

theorem length_dcw_of_packed (h : outputsOf 2 (stageDone 2 s) = outputsOf 2 s) : s.dcw.length = currentCap s / 8 := by
  have hdcw : sliceCodewords _ _ = s.dcw := congrArg State.dcw h
  rw [← hdcw, sliceCodewords_length]

theorem blocks_of_split (h : outputsOf 3 (stageDone 3 s) = outputsOf 3 s) :
    s.dblk = cutBlocks (blockLengths (currentPlan s).groups) s.dcw ∧
      s.eblk = (s.dblk.map fun d => rsecc d (currentPlan s).ec) ∧
      s.nblk = BitVec.ofNat 7 s.dblk.length ∧ s.nec = BitVec.ofNat 8 (currentPlan s).ec := by
  have hdblk : cutBlocks (blockLengths (currentPlan s).groups) s.dcw = s.dblk := congrArg State.dblk h
  have heblk : (cutBlocks (blockLengths (currentPlan s).groups) s.dcw).map _ = s.eblk := congrArg State.eblk h
  have hnblk : BitVec.ofNat 7 (cutBlocks (blockLengths (currentPlan s).groups) s.dcw).length = s.nblk :=
    congrArg State.nblk h
  rw [hdblk] at heblk hnblk
  exact ⟨hdblk.symm, heblk.symm, hnblk.symm, (congrArg State.nec h).symm⟩

theorem codewords_of_interleaved (h : outputsOf 4 (stageDone 4 s) = outputsOf 4 s) :
    s.nicw = BitVec.ofNat 12 (s.ndcw.toNat + s.nblk.toNat * s.nec.toNat) ∧
      s.icw = columns (s.dblk.take s.nblk.toNat) ++ columns (s.eblk.take s.nblk.toNat) :=
  ⟨(congrArg State.nicw h).symm, (congrArg State.icw h).symm⟩

theorem matrix_of_initialised (h : outputsOf 5 (stageDone 5 s) = outputsOf 5 s) :
    s.size = (initialisedState s).size ∧ s.ndata = (initialisedState s).ndata ∧
      s.mtype = typeGrid s.version.toNat (alignOf s.rom s.version.toNat) ∧
      s.mfunc = functionGrid s.version.toNat (alignOf s.rom s.version.toNat) :=
  ⟨(congrArg State.size h).symm, (congrArg State.ndata h).symm, (congrArg State.mtype h).symm, (congrArg State.mfunc h).symm⟩

theorem mpre_of_placed (h : outputsOf 6 (stageDone 6 s) = outputsOf 6 s) :
    s.mpre = placeBits s.mfunc (scanOrder s.mtype s.size.toNat)
      (placementStream (s.icw.take s.nicw.toNat) (s.ndata.toNat - 8 * s.nicw.toNat)) :=
  (congrArg State.mpre h).symm

theorem mcand_of_evaluated (h : outputsOf 7 (stageDone 7 s) = outputsOf 7 s) : s.mcand = candidates s :=
  (congrArg State.mcand h).symm

theorem mfinal_of_stamped (h : outputsOf 9 (stageDone 9 s) = outputsOf 9 s) :
    s.mfinal = finalGrid s.version (fmtcode s.level s.masksel) (selectedCandidate s) :=
  (congrArg State.mfinal h).symm.trans (stampedState_mfinal s)

variable (hstage : ∀ k, 1 ≤ k → k ≤ 9 → stageOk k s ∧ outputsOf k (stageDone k s) = outputsOf k s)
include hstage

/-- NICW counts no more codewords than ICW holds. -/
theorem nicw_le_length_icw (hplan : PlanPremise s.rom s.version.toNat s.level) : s.nicw.toNat ≤ s.icw.length := by
  obtain ⟨-, -, -, hblocks, hcap⟩ : _ ∧ _ ∧ _ ∧ planBlocks (currentPlan s) ≤ 81 ∧
    planData (currentPlan s).groups = currentCap s / 8 := hplan
  have hndcw : planData (currentPlan s).groups = s.ndcw.toNat := (hstage 3 (by decide) (by decide)).1
  have hdcw := length_dcw_of_packed (hstage 2 (by decide) (by decide)).2
  obtain ⟨hdblk, heblk, hnblk, hnec⟩ := blocks_of_split (hstage 3 (by decide) (by decide)).2
  obtain ⟨hnicw, hicw⟩ := codewords_of_interleaved (hstage 4 (by decide) (by decide)).2
  have hcount : s.dblk.length = planBlocks (currentPlan s) := by rw [hdblk, cutBlocks_length, blockLengths_length]
  have hnblk' : s.nblk.toNat = s.dblk.length := by rw [hnblk, BitVec.toNat_ofNat, Nat.mod_eq_of_lt (by omega)]
  have hdata : s.dblk.flatten.length = s.ndcw.toNat := by
    rw [hdblk, cutBlocks_flatten, hdcw, ← hcap, hndcw]
    rw [hdcw, ← planData_eq_sum_blockLengths, hcap]
  have hcheck : s.eblk.flatten.length = s.dblk.length * (currentPlan s).ec := by rw [heblk, length_flatten_checkBlocks]
  have htake : s.dblk.take s.dblk.length = s.dblk ∧ s.eblk.take s.dblk.length = s.eblk :=
    ⟨List.take_length, List.take_of_length_le (by rw [heblk, List.length_map])⟩
  calc s.nicw.toNat ≤ s.ndcw.toNat + s.nblk.toNat * s.nec.toNat := by
        rw [hnicw, BitVec.toNat_ofNat]
        exact Nat.mod_le _ _
    _ ≤ s.ndcw.toNat + s.dblk.length * (currentPlan s).ec := by
        rw [hnblk', hnec, BitVec.toNat_ofNat]
        exact Nat.add_le_add_left (Nat.mul_le_mul_left _ (Nat.mod_le _ _)) _
    _ = s.icw.length := by
        rw [hicw, List.length_append, length_columns, length_columns, hnblk', htake.1, htake.2, hdata, hcheck]

/-- The pre-mask matrix has no empty cell (R209). -/
theorem filled_mpre (hplan : PlanPremise s.rom s.version.toNat s.level) (h1 : 1 ≤ s.version.toNat)
    (h40 : s.version.toNat ≤ 40) :
    s.size.toNat = matrixSize s.version.toNat ∧ Filled (matrixSize s.version.toNat) s.mpre := by
  obtain ⟨hsize, hndata, hmtype, hmfunc⟩ := matrix_of_initialised (hstage 5 (by decide) (by decide)).2
  obtain ⟨hremainder, hmpre⟩ := hstage 6 (by decide) (by decide)
  have hsize' : s.size.toNat = matrixSize s.version.toNat := hsize ▸ initialisedState_size h40
  refine ⟨hsize', ?_⟩
  rw [mpre_of_placed hmpre, hmtype, hmfunc, hsize']
  refine filled_placeBits_scanOrder h1 ?_
  have hle := nicw_le_length_icw hstage hplan
  rw [length_placementStream, List.length_take_of_le hle, ← initialisedState_ndata h40, ← hndata]
  obtain ⟨hfits, -⟩ : remainderOk s := hremainder
  omega

end

/-- Settles O59: placing fills MATINIT's matrix, masking and stamping empty no cell. -/
theorem finalMatrixComplete : Obligations.FinalMatrixComplete := by
  intro s hcontrol hcoherent hstamped htables
  obtain ⟨hplan, -, -⟩ := htables
  have hvalid : ∀ k, 1 ≤ k → k ≤ 9 → isValid k s = true := fun k h1 h9 => hcontrol.isValid_of_stamped hstamped h1 h9
  have hstage : ∀ k, 1 ≤ k → k ≤ 9 → stageOk k s ∧ outputsOf k (stageDone k s) = outputsOf k s := fun k h1 h9 =>
    hcoherent.stageDone h1 h9 (hvalid k h1 h9)
  obtain ⟨hversion, -⟩ := hcoherent
  obtain ⟨h1, h40⟩ := hversion (hvalid 1 (by decide) (by decide))
  obtain ⟨hsize, hmpre⟩ := filled_mpre hstage hplan h1 h40
  have hcand : Filled (matrixSize s.version.toNat) (selectedCandidate s) := by
    obtain ⟨-, hout⟩ := hstage 7 (by decide) (by decide)
    simp only [selectedCandidate, mcand_of_evaluated hout, candidates_getElem s s.masksel.isLt, hsize]
    exact hmpre.candidate _ _
  have hfinal : Filled (matrixSize s.version.toNat) s.mfinal := by
    obtain ⟨-, hout⟩ := hstage 9 (by decide) (by decide)
    rw [mfinal_of_stamped hout]
    exact hcand.finalGrid _
  obtain ⟨hsquare, hcells⟩ := hfinal
  refine ⟨hsquare, fun r c hr hc => ?_⟩
  have hcell := hcells r c hr hc
  cases h : cellAt .empty s.mfinal r c with
  | light => exact .inl rfl
  | dark => exact .inr rfl
  | empty => exact absurd h hcell

end Sys2Proof.Machine
end

section
/-! MASKEVAL and MASKSEL (45_mask_penalty.md R233, R234, R240 to R242): the candidates and their scores, and the arbiter's
choice. -/

namespace Sys2Proof.Machine

/-! ### The predicates (R233) -/

theorem maskPredicate_iff (i j : Nat) :
    (maskPredicate 0 i j ↔ (i + j) % 2 = 0) ∧ (maskPredicate 1 i j ↔ i % 2 = 0) ∧
    (maskPredicate 2 i j ↔ j % 3 = 0) ∧ (maskPredicate 3 i j ↔ (i + j) % 3 = 0) ∧
    (maskPredicate 4 i j ↔ (i / 2 + j / 3) % 2 = 0) ∧ (maskPredicate 5 i j ↔ (i * j) % 2 + (i * j) % 3 = 0) ∧
    (maskPredicate 6 i j ↔ ((i * j) % 2 + (i * j) % 3) % 2 = 0) ∧
    (maskPredicate 7 i j ↔ ((i + j) % 2 + (i * j) % 3) % 2 = 0) :=
  ⟨beq_iff_eq, beq_iff_eq, beq_iff_eq, beq_iff_eq, beq_iff_eq, beq_iff_eq, beq_iff_eq, beq_iff_eq⟩

/-! ### MASKEVAL (R234, R240) -/

theorem cellAt_candidate {size r c : Nat} (mpre : Grid Module) (mtype : Grid ModuleType) (p : Nat) (hr : r < size)
    (hc : c < size) :
    cellAt .empty (candidate mpre mtype size p) r c =
      if cellAt .empty mtype r c = .data ∧ maskPredicate p r c = true
      then invertModule (cellAt .empty mpre r c) else cellAt .empty mpre r c := by
  rw [candidate, cellAt_buildGrid _ hr hc]
  simp only [Bool.and_eq_true, beq_iff_eq]

theorem exec_maskeval {s : State} (hhalt : s.halt = false) (hready : s.valid.getLsbD PLACED = true) :
    exec .maskeval s = .next (complete (evaluatedState s)) := by
  rw [exec_runs (i := .maskeval) hhalt rfl hready, ruleOf, ruleMaskeval_done, conclude]

theorem evaluatedState_mcand (s : State) (p : Fin 8) :
    (evaluatedState s).mcand[p] = candidate s.mpre s.mtype s.size.toNat p :=
  candidates_getElem s p.isLt

theorem evaluatedState_pen (s : State) (p : Fin 8) :
    (evaluatedState s).pen[p] = penaltyOf s.size.toNat (evaluatedState s).mcand[p] :=
  Vector.getElem_map _ _

/-- Settles O41: MASKEVAL's rule always completes, and each candidate is built cell by cell and scored. -/
theorem maskevalCompletes : Obligations.MaskevalCompletes := by
  refine ⟨maskPredicate_iff, fun s hhalt => ⟨fun hready => ⟨_, exec_maskeval hhalt hready, rfl, fun p => ?_⟩,
    fun hnot => exec_notReady hhalt rfl hnot⟩⟩
  simp only [complete_mcand, complete_pen]
  refine ⟨?_, fun r c hr hc => ?_, evaluatedState_pen s p⟩
  · rw [evaluatedState_mcand]
    exact squareGrid_buildGrid _ _
  · rw [evaluatedState_mcand]
    exact cellAt_candidate _ _ _ hr hc

/-! ### MASKSEL (R241, R242) -/

/-- The test of the arbiter on index `p`: no total is below its total. -/
theorem all_ofFn_le_iff (tot : Fin 8 → Nat) (p : Fin 8) :
    ((List.ofFn tot).all fun t => decide ((List.ofFn tot).getD p 0 ≤ t)) = true ↔ ∀ q, tot p ≤ tot q := by
  have hp : (List.ofFn tot).getD p 0 = tot p := by
    rw [List.getD_eq_getElem _ _ (by simp), List.getElem_ofFn]
  simp only [List.all_eq_true, decide_eq_true_eq, List.forall_mem_ofFn_iff, hp]

/-- `select` of eight totals is the least index of a least total (R241). -/
theorem selectMask_ofFn (tot : Fin 8 → Nat) :
    ∃ p : Fin 8, selectMask (List.ofFn tot) = p ∧ (∀ q, tot p ≤ tot q) ∧ ∀ q, q < p → tot p < tot q := by
  obtain ⟨m, hm⟩ := Finite.exists_min tot
  cases hfind : (List.range 8).find? fun p => (List.ofFn tot).all fun t => decide ((List.ofFn tot).getD p 0 ≤ t) with
  | none =>
    have hnot := List.find?_eq_none.mp hfind m (List.mem_range.mpr m.isLt)
    exact absurd ((all_ofFn_le_iff tot m).mpr hm) hnot
  | some i =>
    obtain ⟨hi, hmem, hbefore⟩ := List.find?_range_eq_some.mp hfind
    have hleast := (all_ofFn_le_iff tot ⟨i, List.mem_range.mp hmem⟩).mp hi
    refine ⟨⟨i, List.mem_range.mp hmem⟩, by rw [selectMask, hfind, Option.getD_some], hleast, fun q hq => ?_⟩
    have hq : ¬ ∀ r, tot q ≤ tot r := by
      rw [← all_ofFn_le_iff, Bool.not_eq_true, ← Bool.not_eq_true']
      exact hbefore q hq
    obtain ⟨r, hr⟩ := not_forall.mp hq
    exact (hleast r).trans_lt (not_le.mp hr)

theorem maskTotals_eq_ofFn (s : State) : maskTotals s = List.ofFn fun p : Fin 8 => s.pen[p].total.toNat := by
  refine List.ext_getElem (by simp [maskTotals]) fun i _ _ => ?_
  rw [List.getElem_ofFn]
  simp [maskTotals]

theorem exec_masksel {s : State} (hhalt : s.halt = false) (hready : s.valid.getLsbD EVALD = true) :
    exec .masksel s = .next (complete (selectedState s)) := by
  rw [exec_runs (i := .masksel) hhalt rfl hready, ruleOf, ruleMasksel_done, conclude]

/-- Settles O42: MASKSEL's rule always completes, with the arbiter's choice of the eight totals. -/
theorem maskselCompletes : Obligations.MaskselCompletes := by
  intro s hhalt
  refine ⟨fun hready => ?_, fun hnot => exec_notReady hhalt rfl hnot⟩
  obtain ⟨p, hp, hleast, hfirst⟩ := selectMask_ofFn fun p : Fin 8 => s.pen[p].total.toNat
  refine ⟨p, _, exec_masksel hhalt hready, ?_, hleast, hfirst⟩
  rw [← hp, ← maskTotals_eq_ofFn]
  exact rfl

end Sys2Proof.Machine
end

section
/-! The penalty scores against their plain forms (45_mask_penalty.md R235 to R240): a score that walks along a line sums over
the places where a run or a window starts, and no sum exceeds its register. -/

namespace Sys2Proof.Machine

/-! ### Runs of a line (R236) -/

/-- The number of cells of value `v` that a line begins with. -/
def leadingRun (v : Module) (line : List Module) : Nat := line.findIdx (· != v)

theorem leadingRun_cons_same (v : Module) (line : List Module) : leadingRun v (v :: line) = leadingRun v line + 1 := by
  simp [leadingRun, List.findIdx_cons]

theorem leadingRun_cons_other {v x : Module} (h : x ≠ v) (line : List Module) : leadingRun v (x :: line) = 0 := by
  simp [leadingRun, List.findIdx_cons, bne_iff_ne.mpr h]

/-- The leading run ends at the first cell that is not of its value, the end of the line counting as a null cell. -/
theorem eq_leadingRun_iff {v : Module} (hv : v ≠ .empty) (line : List Module) (n : Nat) :
    n = leadingRun v line ↔ (∀ j < n, line.getD j .empty = v) ∧ line.getD n .empty ≠ v := by
  induction line generalizing n with
  | nil =>
    have hnil : ∀ j, ([] : List Module).getD j .empty ≠ v := fun _ => hv.symm
    refine ⟨fun h => ⟨fun j hj => absurd hj (h ▸ Nat.not_lt_zero j), hnil n⟩, fun h => ?_⟩
    exact Nat.eq_zero_of_not_pos fun hn => hnil 0 (h.1 0 hn)
  | cons x line ih =>
    by_cases hx : x = v
    · subst hx
      rw [leadingRun_cons_same]
      cases n with
      | zero => simp
      | succ n => simp only [Nat.add_right_cancel_iff, ih, Nat.forall_lt_succ_left, List.getD_cons_zero,
          List.getD_cons_succ, true_and]
    · rw [leadingRun_cons_other hx]
      refine ⟨?_, fun h => Nat.eq_zero_of_not_pos fun hn => hx (h.1 0 hn)⟩
      rintro rfl
      exact ⟨fun j hj => absurd hj (Nat.not_lt_zero j), hx⟩

/-- The score of the run that starts at cell `i` of a line after a cell of value `prev`, 0 where none starts (R236). -/
def startScore (prev : Module) (line : List Module) (i : Nat) : Nat :=
  let v := line.getD i .empty
  if v = (prev :: line).getD i .empty then 0 else runScore v (leadingRun v (line.drop i))

/-- Past the first cell, the runs of the rest of the line start. -/
theorem sum_startScore_cons (prev x : Module) (line : List Module) :
    ((List.range (x :: line).length).map (startScore prev (x :: line))).sum =
      (if x = prev then 0 else runScore x (leadingRun x line + 1)) + ((List.range line.length).map (startScore x line)).sum := by
  rw [List.length_cons, List.sum_range_succ', ← leadingRun_cons_same]
  exact rfl

/-- Walking along a line scores the run that is under way, and every run that starts further on. -/
theorem runScores_eq_sum (v : Module) (n : Nat) (line : List Module) :
    runScores v n line = runScore v (n + leadingRun v line) + ((List.range line.length).map (startScore v line)).sum := by
  induction line generalizing v n with
  | nil => simp [runScores, leadingRun]
  | cons x line ih =>
    rw [runScores, sum_startScore_cons]
    by_cases hx : x = v
    · subst hx
      rw [if_pos rfl, if_pos rfl, ih, leadingRun_cons_same, Nat.zero_add, Nat.add_assoc, Nat.add_comm 1]
    · rw [if_neg hx, if_neg hx, ih, leadingRun_cons_other hx, Nat.add_zero, Nat.add_comm 1]

/-- A maximal run starts where the value changes to a non-null one, and is the leading run from there. -/
theorem isMaximalRun_iff (line : List Module) (i n : Nat) :
    isMaximalRun line i n ↔
      1 ≤ n ∧ line.getD i .empty ≠ .empty ∧ line.getD i .empty ≠ (Module.empty :: line).getD i .empty ∧
        n = leadingRun (line.getD i .empty) (line.drop i) := by
  unfold isMaximalRun
  generalize line.getD i .empty = v
  have hdrop : ∀ j, (line.drop i).getD j .empty = line.getD (i + j) .empty := fun j => by
    simp only [List.getD_eq_getElem?_getD, List.getElem?_drop]
  by_cases hv : v = .empty
  · simp [hv]
  have hbefore : (i = 0 ∨ line.getD (i - 1) .empty ≠ v) ↔ v ≠ (Module.empty :: line).getD i .empty := by
    cases i with
    | zero => simpa using hv
    | succ i => simp [eq_comm]
  have hbeyond : ∀ j, line.length ≤ j → line.getD j .empty ≠ v := fun j hj => by
    rw [List.getD_eq_default _ _ hj]
    exact Ne.symm hv
  rw [← hbefore, eq_leadingRun_iff hv]
  simp only [hdrop, Bool.and_eq_true, Bool.or_eq_true, decide_eq_true_eq, bne_iff_ne, List.all_eq_true, List.mem_range,
    beq_iff_eq]
  constructor
  · rintro ⟨⟨⟨⟨⟨hn, hle⟩, hv⟩, hsame⟩, hprev⟩, hnext⟩
    refine ⟨hn, hv, hprev, hsame, hnext.elim (fun hend => hbeyond _ hend.ge) id⟩
  · rintro ⟨hn, hv, hprev, hsame, hnext⟩
    refine ⟨⟨⟨⟨⟨hn, ?_⟩, hv⟩, hsame⟩, hprev⟩, .inr hnext⟩
    by_contra hlong
    exact hbeyond (i + (n - 1)) (by omega) (hsame (n - 1) (by omega))

/-- The maximal runs from cell `i` on are scored as the one run that starts there. -/
theorem sum_maximalRuns_from (line : List Module) {i : Nat} (hi : i < line.length) :
    ((List.range (line.length + 1)).map fun n => if 5 ≤ n ∧ isMaximalRun line i n then n - 2 else 0).sum =
      startScore .empty line i := by
  simp only [isMaximalRun_iff, startScore, runScore]
  generalize hL : leadingRun (line.getD i .empty) (line.drop i) = L
  have hcount : (List.range (line.length + 1)).count L = 1 := by
    have hle : L ≤ (line.drop i).length := hL ▸ List.findIdx_le_length
    rw [List.length_drop] at hle
    exact List.count_eq_one_of_mem List.nodup_range (List.mem_range.mpr (by omega))
  rw [List.sum_map_eq_nsmul_single L _ fun n hne _ => if_neg fun ⟨_, _, _, _, hn⟩ => hne hn, hcount, one_nsmul]
  by_cases hstart : line.getD i .empty = (Module.empty :: line).getD i .empty
  · rw [if_pos hstart, if_neg fun ⟨_, _, _, hne, _⟩ => hne hstart]
  · rw [if_neg hstart]
    refine if_congr ⟨fun ⟨h5, _, hv, _⟩ => ⟨hv, h5⟩, fun ⟨hv, h5⟩ => ⟨h5, by omega, hv, hstart, rfl⟩⟩ rfl rfl

theorem runScores_eq_runPenalty (line : List Module) : runScores .empty 0 line = runPenalty line := by
  have hempty : ∀ n, runScore .empty n = 0 := fun n => if_neg fun h => h.1 rfl
  rw [runScores_eq_sum, hempty, Nat.zero_add, runPenalty]
  exact congrArg List.sum (List.map_congr_left fun i hi => (sum_maximalRuns_from line (List.mem_range.mp hi)).symm)

theorem penaltyN1_eq (size : Nat) (g : Grid Module) : penaltyN1 size g = ((gridLines size g).map runPenalty).sum := by
  rw [penaltyN1, funext runScores_eq_runPenalty]

/-! ### Blocks (R237) -/

/-- Four cells of one non-null value are four light cells or four dark ones. -/
theorem uniformBlock_iff (g : Grid Module) (r c : Nat) :
    uniformBlock g r c ↔
      (∀ i < 2, ∀ j < 2, cellAt .empty g (r + i) (c + j) = .light) ∨
      (∀ i < 2, ∀ j < 2, cellAt .empty g (r + i) (c + j) = .dark) := by
  have hforall : ∀ P : Nat → Prop, (∀ i < 2, P i) ↔ P 0 ∧ P 1 := fun P => by
    simp [Nat.forall_lt_succ_right, -Order.lt_two_iff]
  simp only [hforall, uniformBlock, Bool.and_eq_true, bne_iff_ne, beq_iff_eq, Nat.add_zero]
  cases cellAt .empty g r c <;> simp [and_assoc]

/-- No block of the matrix has its top-left cell in the last column. -/
theorem countP_blocks_of_row (m : Nat) (g : Grid Module) (r : Nat) :
    ((List.range (m + 1)).map fun c => (r, c)).countP
        (fun p => p.1 + 2 ≤ m + 1 ∧ p.2 + 2 ≤ m + 1 ∧ uniformBlock g p.1 p.2) =
      if r < m then (List.range m).countP fun c => uniformBlock g r c else 0 := by
  rw [List.countP_map, List.range_succ, List.countP_append, List.countP_singleton, if_neg (by simp), Nat.add_zero]
  split
  · next hr =>
    refine List.countP_congr fun c hc => ?_
    have hc := List.mem_range.mp hc
    simp only [Function.comp_apply, decide_eq_true_eq]
    exact ⟨fun h => h.2.2, fun h => ⟨by omega, by omega, h⟩⟩
  · next hr =>
    refine List.countP_eq_zero.mpr fun c _ => ?_
    simp only [Function.comp_apply, decide_eq_true_eq]
    omega

/-- No block of the matrix has its top-left cell in the last row. -/
theorem penaltyN2_eq (size : Nat) (g : Grid Module) :
    penaltyN2 size g = 3 * ((List.range size).flatMap fun r => (List.range size).map fun c => (r, c)).countP (fun p =>
      p.1 + 2 ≤ size ∧ p.2 + 2 ≤ size ∧ (∀ i < 2, ∀ j < 2, cellAt .empty g (p.1 + i) (p.2 + j) = .light) ∨
      p.1 + 2 ≤ size ∧ p.2 + 2 ≤ size ∧ (∀ i < 2, ∀ j < 2, cellAt .empty g (p.1 + i) (p.2 + j) = .dark)) := by
  simp only [← and_or_left, ← uniformBlock_iff]
  rw [penaltyN2, List.countP_flatMap]
  cases size with
  | zero => rfl
  | succ m =>
    have hrow := funext (countP_blocks_of_row m g)
    rw [Function.comp_def, hrow, List.sum_range_succ, if_neg (Nat.lt_irrefl m), Nat.add_zero, Nat.add_sub_cancel]
    exact congrArg (3 * List.sum ·) (List.map_congr_left fun r hr => (if_pos (List.mem_range.mp hr)).symm)

/-! ### Windows (R238) -/

theorem windowMatches_eq_windowCount (line : List Module) : windowMatches line = windowCount line := by
  induction line with
  | nil => rfl
  | cons x line ih =>
    have hhead : finderSequence.isPrefixOf (x :: line) = ((x :: line).take 7 == finderSequence) := by
      rw [Bool.eq_iff_iff, List.isPrefixOf_iff_prefix, List.prefix_iff_eq_take, beq_iff_eq, eq_comm]
      exact Iff.rfl
    rw [windowMatches, ih, hhead, windowCount, windowCount, List.length_cons, List.range_succ_eq_map, List.countP_cons,
      List.countP_map]
    exact Nat.add_comm _ _

theorem penaltyN3_eq (size : Nat) (g : Grid Module) : penaltyN3 size g = 40 * ((gridLines size g).map windowCount).sum := by
  rw [penaltyN3, funext windowMatches_eq_windowCount]

/-! ### Bounds (R240) -/

theorem runScores_le (v : Module) (n : Nat) (line : List Module) : runScores v n line ≤ n + line.length := by
  have hscore : ∀ v n, runScore v n ≤ n := fun v n => by
    unfold runScore
    split <;> omega
  induction line generalizing v n with
  | nil => exact hscore v n
  | cons x line ih =>
    rw [runScores, List.length_cons]
    split
    · exact (ih v (n + 1)).trans_eq (by omega)
    · exact (Nat.add_le_add (hscore v n) (ih x 1)).trans_eq (by omega)

theorem windowMatches_le (line : List Module) : windowMatches line ≤ line.length := by
  rw [windowMatches_eq_windowCount]
  exact List.countP_le_length.trans_eq List.length_range

/-- A score of lines that is at most a line's length is at most the `2·size²` cells of all lines. -/
theorem sum_gridLines_le {score : List Module → Nat} (h : ∀ line, score line ≤ line.length) (size : Nat) (g : Grid Module) :
    ((gridLines size g).map score).sum ≤ 2 * (size * size) := by
  have hlines : (gridLines size g).length = 2 * size := by
    simp [gridLines]
    omega
  have hscore : ∀ n ∈ (gridLines size g).map score, n ≤ size := by
    simp only [List.forall_mem_map]
    intro line hline
    refine (h line).trans_eq ?_
    simp only [gridLines, List.mem_append, List.mem_map] at hline
    rcases hline with ⟨r, -, rfl⟩ | ⟨c, -, rfl⟩ <;> simp
  have hsum := List.sum_le_card_nsmul _ size hscore
  rwa [List.length_map, hlines, smul_eq_mul, Nat.mul_assoc] at hsum

theorem penaltyN1_le (size : Nat) (g : Grid Module) : penaltyN1 size g ≤ 2 * (size * size) :=
  sum_gridLines_le (fun line => (runScores_le .empty 0 line).trans_eq (Nat.zero_add _)) size g

theorem penaltyN3_le (size : Nat) (g : Grid Module) : penaltyN3 size g ≤ 40 * (2 * (size * size)) :=
  Nat.mul_le_mul_left 40 (sum_gridLines_le windowMatches_le size g)

/-- A count over `n` rows of `n` cells is at most `n²`. -/
theorem sum_countP_range_le (n : Nat) (p : Nat → Nat → Bool) :
    ((List.range n).map fun r => (List.range n).countP (p r)).sum ≤ n * n := by
  have hrow : ∀ k ∈ (List.range n).map fun r => (List.range n).countP (p r), k ≤ n := by
    simp only [List.forall_mem_map]
    exact fun r _ => List.countP_le_length.trans_eq List.length_range
  have hsum := List.sum_le_card_nsmul _ n hrow
  rwa [List.length_map, List.length_range, smul_eq_mul] at hsum

theorem darkCount_le (size : Nat) (g : Grid Module) : darkCount size g ≤ size * size :=
  sum_countP_range_le size fun r c => cellAt .empty g r c == .dark

theorem penaltyN2_le (size : Nat) (g : Grid Module) : penaltyN2 size g ≤ 3 * (size * size) :=
  Nat.mul_le_mul_left 3 ((sum_countP_range_le (size - 1) fun r c => uniformBlock g r c).trans
    (Nat.mul_le_mul (Nat.sub_le size 1) (Nat.sub_le size 1)))

/-! ### Balance of dark cells (R239) -/

theorem penaltyN4_eq (size : Nat) (g : Grid Module) :
    penaltyN4 size g = 10 * (((20 * darkCount size g : Int) - 10 * (size * size)).natAbs / (size * size)) := by
  rw [penaltyN4, n4Score, absDiff_eq_natAbs]
  push_cast
  rfl

theorem penaltyN4_le (size : Nat) (g : Grid Module) : penaltyN4 size g ≤ 100 := by
  have hdark := darkCount_le size g
  have hdiff : absDiff (20 * darkCount size g) (10 * (size * size)) ≤ 10 * (size * size) := by
    unfold absDiff
    omega
  exact Nat.mul_le_mul_left 10 (Nat.div_le_of_le_mul (hdiff.trans_eq (Nat.mul_comm _ _)))

/-- Settles O56: N1 and N3 agree line by line, N2 row by row, and a matrix up to size 177 has too few cells for an overflow. -/
theorem penaltyScores : Obligations.PenaltyScores := by
  intro size g
  refine ⟨penaltyN1_eq size g, penaltyN2_eq size g, rfl, penaltyN3_eq size g, darkCount_le size g, penaltyN4_eq size g,
    penaltyN4_le size g, fun hsize => ?_⟩
  have hcells : size * size ≤ 177 * 177 := Nat.mul_le_mul hsize hsize
  have h1 := penaltyN1_le size g
  have h2 := penaltyN2_le size g
  have h3 := penaltyN3_le size g
  have h4 := penaltyN4_le size g
  have hdark := darkCount_le size g
  simp only [penaltyOf, BitVec.toNat_ofNat]
  omega

end Sys2Proof.Machine
end

section
/-! Words by the positions of their 1 bits (46_bch_format.md R265): the number of flips between two words is the number of
positions that differ, and flipping these turns one word into the other. -/

namespace Sys2Proof.Machine

variable {n : Nat}

/-! ### The number of 1 bits -/

theorem countP_xor_le {α : Type} (p q : α → Bool) (l : List α) :
    l.countP (fun a => p a ^^ q a) ≤ l.countP p + l.countP q := by
  induction l with
  | nil => exact Nat.zero_le _
  | cons a l ih =>
    have hhead : (if (p a ^^ q a) = true then 1 else 0) ≤ (if p a = true then 1 else 0) + if q a = true then 1 else 0 := by
      cases p a <;> cases q a <;> decide
    simp only [List.countP_cons]
    omega

theorem weight_xor_le (a b : BitVec n) : weight (a ^^^ b) ≤ weight a + weight b := by
  simpa only [weight, BitVec.getLsbD_xor] using countP_xor_le a.getLsbD b.getLsbD (List.range n)

/-! ### Positions -/

/-- Positions of bits of an `n`-bit word, in rising order. -/
def IsPositions (n : Nat) (l : List Nat) : Prop := l.Pairwise (· < ·) ∧ ∀ i ∈ l, i < n

/-- The positions of the 1 bits. -/
def onBits (w : BitVec n) : List Nat := (List.range n).filter w.getLsbD

theorem weight_eq_length_onBits (w : BitVec n) : weight w = (onBits w).length := List.countP_eq_length_filter

theorem mem_onBits {w : BitVec n} {k : Nat} : k ∈ onBits w ↔ k < n ∧ w.getLsbD k = true := by
  rw [onBits, List.mem_filter, List.mem_range]

theorem isPositions_onBits (w : BitVec n) : IsPositions n (onBits w) :=
  ⟨List.pairwise_lt_range.filter _, fun _ hi => (mem_onBits.mp hi).1⟩

theorem isPositions_pair {i j : Nat} : IsPositions n [i, j] ↔ i < j ∧ j < n := by
  simp only [IsPositions, List.pairwise_pair, List.mem_cons, List.not_mem_nil, or_false, forall_eq_or_imp, forall_eq]
  omega

theorem isPositions_triple {i j k : Nat} : IsPositions n [i, j, k] ↔ i < j ∧ j < k ∧ k < n := by
  simp only [IsPositions, List.pairwise_cons, List.mem_cons, List.not_mem_nil, or_false, forall_eq_or_imp, forall_eq,
    false_imp_iff, implies_true, List.Pairwise.nil, and_true]
  omega

theorem mem_pairsBelow {p : Nat × Nat} : p ∈ pairsBelow n ↔ IsPositions n [p.1, p.2] := by
  obtain ⟨i, j⟩ := p
  simp [pairsBelow, isPositions_pair, and_comm]

theorem mem_triplesBelow {t : Nat × Nat × Nat} : t ∈ triplesBelow n ↔ IsPositions n [t.1, t.2.1, t.2.2] := by
  obtain ⟨i, j, k⟩ := t
  simp [triplesBelow, mem_pairsBelow, isPositions_pair, isPositions_triple, and_comm, and_assoc]

/-! ### Flipping the bits at given positions -/

/-- The word with the bits at the positions `l` flipped, one after the other. -/
def flipBits (w : BitVec n) (l : List Nat) : BitVec n := l.foldl flipBit w

theorem getLsbD_flipBit (w : BitVec n) (i : Nat) {k : Nat} (hk : k < n) :
    (flipBit w i).getLsbD k = (w.getLsbD k ^^ decide (k = i)) := by
  rw [flipBit, BitVec.getLsbD_xor, BitVec.natCast_eq_ofNat, BitVec.getLsbD_ofNat, decide_eq_true hk, Bool.true_and,
    Nat.one_shiftLeft, Nat.testBit_two_pow, decide_eq_decide.mpr eq_comm]

theorem getLsbD_flipBits {l : List Nat} (hl : l.Nodup) (w : BitVec n) {k : Nat} (hk : k < n) :
    (flipBits w l).getLsbD k = (w.getLsbD k ^^ decide (k ∈ l)) := by
  induction l generalizing w with
  | nil => simp [flipBits]
  | cons i l ih =>
    obtain ⟨hi, hl⟩ := List.nodup_cons.mp hl
    rw [flipBits, List.foldl_cons, ← flipBits, ih hl, getLsbD_flipBit w i hk]
    by_cases hki : k = i
    · simp [hki, hi]
    · simp [hki]

theorem flipBits_onBits_xor (c w : BitVec n) : flipBits w (onBits (c ^^^ w)) = c := by
  refine BitVec.eq_of_getLsbD_eq fun k hk => ?_
  rw [getLsbD_flipBits (isPositions_onBits _).1.nodup w hk]
  simp only [mem_onBits, hk, true_and, Bool.decide_eq_true, BitVec.getLsbD_xor]
  rw [Bool.xor_left_comm, Bool.xor_self, Bool.xor_false]

theorem IsPositions.onBits_flipBits_xor {l : List Nat} (hl : IsPositions n l) (w : BitVec n) :
    onBits (flipBits w l ^^^ w) = l := by
  obtain ⟨hsorted, hbelow⟩ := hl
  refine (isPositions_onBits _).1.eq_of_mem_iff hsorted fun k => ?_
  rw [mem_onBits]
  refine (and_congr_right fun hk => ?_).trans (and_iff_right_of_imp (hbelow k))
  rw [BitVec.getLsbD_xor, getLsbD_flipBits hsorted.nodup w hk, Bool.xor_right_comm, Bool.xor_self,
    Bool.false_xor, decide_eq_true_iff]

theorem IsPositions.weight_flipBits_xor {l : List Nat} (hl : IsPositions n l) (w : BitVec n) :
    weight (flipBits w l ^^^ w) = l.length := by
  rw [weight_eq_length_onBits, hl.onBits_flipBits_xor]

end Sys2Proof.Machine
end

section
/-! Systematic linear codes (46_bch_format.md R261 to R265, 47_bch_version.md R281 to R285): both BCH codes have `k` data
bits above `m` check bits and a linear remainder, so their distance is the least weight of a codeword other than 0, and a search
through all flips of up to three bits finds the nearest codeword. -/

namespace Sys2Proof.Machine

variable {k m : Nat}

/-! ### Remainders by XOR division (R261, R281) -/

/-- A remainder of the words of `k + m` bits: linear, and the identity on the words below `2 ^ m`. -/
structure IsRemainder (rem : BitVec (k + m) → BitVec m) : Prop where
  xor : ∀ a b, rem (a ^^^ b) = rem a ^^^ rem b
  low : ∀ r : BitVec m, rem (0#k ++ r) = r

/-- One round of the division by `g` of degree `m`, at bit `i`. -/
def divRound {n : Nat} (g : BitVec n) (m : Nat) (v : BitVec n) (i : Nat) : BitVec n :=
  if v.getLsbD i then v ^^^ (g <<< (i - m)) else v

theorem divRound_xor {n : Nat} (g : BitVec n) (m : Nat) (a b : BitVec n) (i : Nat) :
    divRound g m (a ^^^ b) i = divRound g m a i ^^^ divRound g m b i := by
  unfold divRound
  generalize g <<< (i - m) = x
  rw [BitVec.getLsbD_xor]
  cases a.getLsbD i <;> cases b.getLsbD i
  · rfl
  · exact BitVec.xor_assoc a b x
  · show a ^^^ b ^^^ x = a ^^^ x ^^^ b
    ac_rfl
  · show a ^^^ b = a ^^^ x ^^^ (b ^^^ x)
    rw [BitVec.xor_comm b, BitVec.xor_assoc, xor_cancel_left]

theorem foldl_divRound_xor {n : Nat} (g : BitVec n) (m : Nat) (rounds : List Nat) (a b : BitVec n) :
    rounds.foldl (divRound g m) (a ^^^ b) = rounds.foldl (divRound g m) a ^^^ rounds.foldl (divRound g m) b := by
  induction rounds generalizing a b with
  | nil => rfl
  | cons i rounds ih => rw [List.foldl_cons, divRound_xor, ih, List.foldl_cons, List.foldl_cons]

/-- No round divides a word below `2 ^ m`. -/
theorem foldl_divRound_low (g : BitVec (k + m)) {rounds : List Nat} (hrounds : ∀ i ∈ rounds, m ≤ i) (r : BitVec m) :
    rounds.foldl (divRound g m) (0#k ++ r) = 0#k ++ r := by
  induction rounds with
  | nil => rfl
  | cons i rounds ih =>
    obtain ⟨hi, hrounds⟩ := List.forall_mem_cons.mp hrounds
    have hbit : (0#k ++ r).getLsbD i = false := by simp [BitVec.getLsbD_append, Nat.not_lt.mpr hi]
    have hround : divRound g m (0#k ++ r) i = 0#k ++ r := if_neg (ne_true_of_eq_false hbit)
    rw [List.foldl_cons, hround, ih hrounds]

theorem isRemainder_divRounds (g : BitVec (k + m)) {rounds : List Nat} (hrounds : ∀ i ∈ rounds, m ≤ i) :
    IsRemainder fun v => (rounds.foldl (divRound g m) v).extractLsb' 0 m where
  xor a b := by rw [foldl_divRound_xor, BitVec.extractLsb'_xor]
  low r := by rw [foldl_divRound_low g hrounds, BitVec.extractLsb'_append_eq_right]

/-! ### Codewords (R262, R282) -/

theorem append_zero_or_setWidth (x : BitVec k) (y : BitVec m) : (x ++ 0#m) ||| y.setWidth (k + m) = x ++ y := by
  refine BitVec.eq_of_getLsbD_eq fun i hi => ?_
  rw [BitVec.getLsbD_or, BitVec.getLsbD_append, BitVec.getLsbD_append, BitVec.getLsbD_setWidth, decide_eq_true hi,
    Bool.true_and]
  split
  · rw [BitVec.getLsbD_zero, Bool.false_or]
  · rw [BitVec.getLsbD_of_ge y i (by omega), Bool.or_false]

/-- The codeword of `k` data bits: the data above the remainder. -/
def codeOf (rem : BitVec (k + m) → BitVec m) (d : BitVec k) : BitVec (k + m) := d ++ rem (d ++ 0#m)

/-- The codewords other than 0 have at least `dist` bits set. -/
def HasDistance {n : Nat} (rem : BitVec n → BitVec m) (dist : Nat) : Prop := ∀ c, rem c = 0 → c ≠ 0 → dist ≤ weight c

section
variable {rem : BitVec (k + m) → BitVec m} (h : IsRemainder rem)
include h

theorem IsRemainder.append (d : BitVec k) (r : BitVec m) : rem (d ++ r) = rem (d ++ 0#m) ^^^ r := by
  have hsplit : d ++ r = (d ++ 0#m) ^^^ (0#k ++ r) := by simp [BitVec.xor_append]
  rw [hsplit, h.xor, h.low]

theorem IsRemainder.rem_codeOf (d : BitVec k) : rem (codeOf rem d) = 0 := by
  rw [codeOf, h.append, BitVec.xor_self]
  rfl

theorem IsRemainder.exists_codeOf {c : BitVec (k + m)} (hc : rem c = 0) : ∃ d, c = codeOf rem d := by
  have hsplit : c.extractLsb' m k ++ c.extractLsb' 0 m = c := by
    rw [BitVec.extractLsb'_append_extractLsb'_eq_extractLsb' (Nat.zero_add m).symm, BitVec.extractLsb'_eq_self]
  refine ⟨c.extractLsb' m k, ?_⟩
  rw [← hsplit, h.append] at hc
  rw [codeOf, BitVec.xor_eq_zero_iff.mp hc, hsplit]

theorem IsRemainder.codeOf_zero : codeOf rem 0 = 0 := by
  have hzero : (0 : BitVec k) ++ 0#m = 0 := BitVec.zero_append_zero
  have hrem : rem ((0 : BitVec k) ++ 0#m) = 0 := h.low 0#m
  rw [codeOf, hrem, ← hzero]
  rfl

theorem IsRemainder.hasDistance {dist : Nat} (hdata : ∀ d : BitVec k, d ≠ 0 → dist ≤ weight (codeOf rem d)) :
    HasDistance rem dist := by
  intro c hc hne
  obtain ⟨d, rfl⟩ := h.exists_codeOf hc
  refine hdata d fun hd => hne ?_
  rw [hd, h.codeOf_zero]

end

theorem HasDistance.mono {n d dist : Nat} {rem : BitVec n → BitVec m} (hdist : HasDistance rem dist) (hle : d ≤ dist) :
    HasDistance rem d :=
  fun c hc hne => hle.trans (hdist c hc hne)

section
variable {n dist : Nat} {rem : BitVec n → BitVec m} (hdist : HasDistance rem dist)
  (hxor : ∀ a b, rem (a ^^^ b) = rem a ^^^ rem b) {c c' : BitVec n} (hc : rem c = 0) (hc' : rem c' = 0)
include hdist hxor hc hc'

theorem HasDistance.le_weight_xor (hne : c ≠ c') : dist ≤ weight (c ^^^ c') := by
  refine hdist _ ?_ fun h => hne (BitVec.xor_eq_zero_iff.mp h)
  rw [hxor, hc, hc', BitVec.xor_self]
  rfl

/-- Two codewords near one word are one codeword. -/
theorem HasDistance.eq_of_near {w : BitVec n} (hnear : weight (c ^^^ w) + weight (c' ^^^ w) < dist) : c = c' := by
  by_contra hne
  have hxorw : c ^^^ w ^^^ (c' ^^^ w) = c ^^^ c' := by
    rw [BitVec.xor_comm c', BitVec.xor_assoc, xor_cancel_left]
  have hfar := hdist.le_weight_xor hxor hc hc' hne
  rw [← hxorw] at hfar
  exact absurd (hfar.trans (weight_xor_le _ _)) (Nat.not_le.mpr hnear)

end

/-! ### The decoder's search (R265, R285) -/

section
variable {n m : Nat}

/-- The search of both decoders, for a remainder `rem`: no flip, one flip, two flips, three flips. -/
def correctBy (rem : BitVec n → BitVec m) (w : BitVec n) : Option (Correction n) :=
  if rem w = 0 then some ⟨w, 0⟩
  else
    match (List.range n).find? fun i => rem w == rem (1 <<< i) with
    | some i => some ⟨flipBits w [i], 1⟩
    | none =>
      match (pairsBelow n).find? fun p => rem (flipBits w [p.1, p.2]) == 0 with
      | some p => some ⟨flipBits w [p.1, p.2], 2⟩
      | none =>
        match (triplesBelow n).find? fun t => rem (flipBits w [t.1, t.2.1, t.2.2]) == 0 with
        | some t => some ⟨flipBits w [t.1, t.2.1, t.2.2], 3⟩
        | none => none

/-- The bits of at most three flips, in the order of the search. -/
def flipLists (n : Nat) : List (List Nat) :=
  [] :: ((List.range n).map (fun i => [i]) ++ ((pairsBelow n).map (fun p => [p.1, p.2]) ++
    (triplesBelow n).map fun t => [t.1, t.2.1, t.2.2]))

theorem mem_flipLists {l : List Nat} : l ∈ flipLists n ↔ IsPositions n l ∧ l.length ≤ 3 := by
  match l with
  | [] => simp [flipLists, IsPositions]
  | [i] => simp [flipLists, IsPositions]
  | [i, j] => simp [flipLists, mem_pairsBelow]
  | [i, j, k] => simp [flipLists, mem_triplesBelow]
  | _ :: _ :: _ :: _ :: l => simp [flipLists]

variable {rem : BitVec n → BitVec m} {w : BitVec n}

theorem flips_of_find? {l : List Nat} (h : ((flipLists n).find? fun l => rem (flipBits w l) == 0) = some l) :
    IsPositions n l ∧ l.length ≤ 3 ∧ rem (flipBits w l) = 0 := by
  obtain ⟨hpos, hfew⟩ := mem_flipLists.mp (List.mem_of_find?_eq_some h)
  exact ⟨hpos, hfew, by simpa using List.find?_some h⟩

theorem exists_find?_of_near {c : BitVec n} (hc : rem c = 0) (hnear : weight (c ^^^ w) ≤ 3) :
    ∃ l, ((flipLists n).find? fun l => rem (flipBits w l) == 0) = some l := by
  rw [weight_eq_length_onBits] at hnear
  exact Option.isSome_iff_exists.mp (List.find?_isSome.mpr
    ⟨_, mem_flipLists.mpr ⟨isPositions_onBits (c ^^^ w), hnear⟩, by rw [flipBits_onBits_xor, hc, beq_self_eq_true]⟩)

variable (hxor : ∀ a b, rem (a ^^^ b) = rem a ^^^ rem b)
include hxor

/-- The lookup in the single-bit table tries one flip. -/
theorem rem_eq_rem_bit_iff (i : Nat) : rem w = rem (1 <<< i) ↔ rem (flipBits w [i]) = 0 := by
  rw [flipBits, List.foldl_cons, List.foldl_nil, flipBit, hxor]
  exact BitVec.xor_eq_zero_iff.symm

/-- The search takes the first list of flips that lead to a codeword. -/
theorem correctBy_eq_find? : correctBy rem w =
    ((flipLists n).find? fun l => rem (flipBits w l) == 0).map fun l => ⟨flipBits w l, l.length⟩ := by
  have htable : (fun i => rem w == rem (1 <<< i)) = fun i => rem (flipBits w [i]) == 0 :=
    funext fun i => Bool.eq_iff_iff.mpr (by simp only [beq_iff_eq, rem_eq_rem_bit_iff hxor])
  rw [correctBy, htable, flipLists]
  by_cases hzero : rem w = 0
  · have hnil : (rem (flipBits w []) == 0) = true := beq_iff_eq.mpr hzero
    rw [if_pos hzero, List.find?_cons, hnil]
    rfl
  · have hnil : (rem (flipBits w []) == 0) = false := beq_false_of_ne hzero
    rw [if_neg hzero, List.find?_cons, hnil]
    simp only [List.find?_append, List.find?_map, Function.comp_def]
    cases (List.range n).find? fun i => rem (flipBits w [i]) == 0 with
    | some i => rfl
    | none =>
      cases (pairsBelow n).find? fun p => rem (flipBits w [p.1, p.2]) == 0 with
      | some p => rfl
      | none => cases (triplesBelow n).find? fun t => rem (flipBits w [t.1, t.2.1, t.2.2]) == 0 <;> rfl

/-- In a code of distance 7 the search finds exactly the codeword within three flips. -/
theorem correctBy_eq_some_iff (hdist : HasDistance rem 7) {c : BitVec n} {e : Nat} :
    correctBy rem w = some ⟨c, e⟩ ↔ rem c = 0 ∧ e = weight (c ^^^ w) ∧ e ≤ 3 := by
  simp only [correctBy_eq_find? hxor, Option.map_eq_some_iff, Correction.mk.injEq]
  constructor
  · rintro ⟨l, hfind, rfl, rfl⟩
    obtain ⟨hpos, hfew, hword⟩ := flips_of_find? hfind
    exact ⟨hword, (hpos.weight_flipBits_xor w).symm, hfew⟩
  · rintro ⟨hc, rfl, hnear⟩
    obtain ⟨l, hfind⟩ := exists_find?_of_near hc hnear
    obtain ⟨hpos, hfew, hl⟩ := flips_of_find? hfind
    have hweight := hpos.weight_flipBits_xor w
    have hword : flipBits w l = c := hdist.eq_of_near hxor hl hc (w := w) (by omega)
    exact ⟨l, hfind, hword, by rw [← hword, hweight]⟩

end

end Sys2Proof.Machine
end

section
/-! The two BCH codes (46_bch_format.md R260 to R268, 47_bch_version.md R280 to R288): distances 7 and 8, what the decoders
find, and what the four commands write. -/

namespace Sys2Proof.Machine

/-! ### The two codes -/

theorem isRemainder_rem15 : IsRemainder (k := 5) (m := 10) rem15 :=
  isRemainder_divRounds (k := 5) (m := 10) g15 (rounds := [14, 13, 12, 11, 10]) (by decide)

theorem isRemainder_rem18 : IsRemainder (k := 6) (m := 12) rem18 :=
  isRemainder_divRounds (k := 6) (m := 12) g18 (rounds := [17, 16, 15, 14, 13, 12]) (by decide)

theorem fmtCodeword_eq_codeOf (d : BitVec 5) : fmtCodeword d = codeOf (k := 5) (m := 10) rem15 d :=
  append_zero_or_setWidth (k := 5) (m := 10) d _

theorem vercode_eq_codeOf (v : BitVec 6) : vercode v = codeOf (k := 6) (m := 12) rem18 v :=
  append_zero_or_setWidth (k := 6) (m := 12) v _

theorem hasDistance_rem15 : HasDistance rem15 7 :=
  isRemainder_rem15.hasDistance (by decide)

theorem hasDistance_rem18 : HasDistance rem18 8 :=
  isRemainder_rem18.hasDistance (by decide)

theorem rem15_fmtCodeword (d : BitVec 5) : rem15 (fmtCodeword d) = 0 := by
  rw [fmtCodeword_eq_codeOf]
  exact isRemainder_rem15.rem_codeOf d

theorem rem18_vercode (v : BitVec 6) : rem18 (vercode v) = 0 := by
  rw [vercode_eq_codeOf]
  exact isRemainder_rem18.rem_codeOf v

theorem extractLsb'_fmtCodeword (d : BitVec 5) : (fmtCodeword d).extractLsb' 10 5 = d := by
  rw [fmtCodeword_eq_codeOf]
  exact BitVec.extractLsb'_append_eq_left

theorem versionField_vercode (v : BitVec 6) : versionField (vercode v) = v := by
  rw [vercode_eq_codeOf]
  exact BitVec.extractLsb'_append_eq_left

theorem fmtcode_xor_formatMask (level : BitVec 2) (mask : BitVec 3) :
    fmtcode level mask ^^^ formatMask = fmtCodeword (level ++ mask) := by
  rw [fmtcode, xor_cancel_right]

/-! ### The decoders (R265, R285) -/

theorem fmtCorrect_eq_correctBy (w : BitVec 15) : fmtCorrect w = correctBy rem15 w := rfl

theorem verCorrect_eq_correctBy (w : BitVec 18) : verCorrect w = correctBy rem18 w := rfl

theorem fmtdecode_eq_some_iff {raw : BitVec 15} {c : Correction 15} :
    fmtdecode raw = some c ↔ rem15 c.word = 0 ∧ c.errors = weight (c.word ^^^ raw ^^^ formatMask) ∧ c.errors ≤ 3 := by
  rw [fmtdecode, fmtCorrect_eq_correctBy, BitVec.xor_assoc]
  exact correctBy_eq_some_iff isRemainder_rem15.xor hasDistance_rem15

theorem verCorrect_eq_some_iff {raw : BitVec 18} {c : Correction 18} :
    verCorrect raw = some c ↔ rem18 c.word = 0 ∧ c.errors = weight (c.word ^^^ raw) ∧ c.errors ≤ 3 := by
  rw [verCorrect_eq_correctBy]
  exact correctBy_eq_some_iff isRemainder_rem18.xor (hasDistance_rem18.mono (by decide))

theorem validated_iff {rom : Rom} {w : BitVec 18} :
    validated rom w = true ↔ 7 ≤ (versionField w).toNat ∧ (versionField w).toNat ≤ 40 ∧
      vercode (versionField w) = rom.verref.getD ((versionField w).toNat - 7) 0 := by
  rw [validated, Bool.and_eq_true, decide_eq_true_iff, beq_iff_eq, and_assoc]
  refine and_congr_right fun h7 => and_congr_right fun h40 => ?_
  rw [verrefOf, if_pos ⟨h7, h40⟩]

theorem verdecode_eq_some_iff {rom : Rom} {raw : BitVec 18} {c : Correction 18} :
    verdecode rom raw = some c ↔ verCorrect raw = some c ∧ validated rom c.word = true := by
  rw [verdecode]
  cases verCorrect raw with
  | none => simp
  | some c' =>
    simp only [Option.ite_none_right_eq_some, Option.some_inj]
    exact ⟨fun ⟨hv, h⟩ => ⟨h, h ▸ hv⟩, fun ⟨h, hv⟩ => ⟨h ▸ hv, h⟩⟩

/-- Settles O57: both codes have distance 7 or more, so the search's first hit is the one codeword within three flips. -/
theorem bchDecodersFindNearest : Obligations.BchDecodersFindNearest := by
  refine ⟨fun raw c => fmtdecode_eq_some_iff, fun raw c => ⟨verCorrect_eq_some_iff, fun rom => ?_⟩⟩
  rw [verdecode_eq_some_iff, verCorrect_eq_some_iff, validated_iff]
  rfl

/-! ### Injected errors (R264, R268, R284, R288) -/

theorem weight_fmtCodeword_xor {d e : BitVec 5} (hne : d ≠ e) : 7 ≤ weight (fmtCodeword d ^^^ fmtCodeword e) :=
  hasDistance_rem15.le_weight_xor isRemainder_rem15.xor (rem15_fmtCodeword d) (rem15_fmtCodeword e) fun h =>
    hne (by rw [← extractLsb'_fmtCodeword d, h, extractLsb'_fmtCodeword])

theorem weight_vercode_xor {v u : BitVec 6} (hne : v ≠ u) : 8 ≤ weight (vercode v ^^^ vercode u) :=
  hasDistance_rem18.le_weight_xor isRemainder_rem18.xor (rem18_vercode v) (rem18_vercode u) fun h =>
    hne (by rw [← versionField_vercode v, h, versionField_vercode])

theorem fmtdecode_fmtcode_xor (level : BitVec 2) (mask : BitVec 3) {e : BitVec 15} (he : weight e ≤ 3) :
    fmtdecode (fmtcode level mask ^^^ e) = some ⟨fmtCodeword (level ++ mask), weight e⟩ := by
  have hflips : e = fmtCodeword (level ++ mask) ^^^ (fmtcode level mask ^^^ e) ^^^ formatMask := by
    rw [fmtcode, BitVec.xor_assoc _ formatMask, xor_cancel_left, BitVec.xor_comm formatMask, xor_cancel_right]
  exact fmtdecode_eq_some_iff.mpr ⟨rem15_fmtCodeword _, congrArg weight hflips, he⟩

theorem validated_vercode {rom : Rom} (hrom : VerrefPremise rom) {v : BitVec 6} (h7 : 7 ≤ v.toNat) (h40 : v.toNat ≤ 40) :
    validated rom (vercode v) = true := by
  rw [validated, versionField_vercode, hrom v h7 h40, beq_self_eq_true, Bool.and_true]
  exact decide_eq_true ⟨h7, h40⟩

theorem verCorrect_vercode_xor (v : BitVec 6) {e : BitVec 18} (he : weight e ≤ 3) :
    verCorrect (vercode v ^^^ e) = some ⟨vercode v, weight e⟩ := by
  have hflips : e = vercode v ^^^ (vercode v ^^^ e) := (xor_cancel_left _ _).symm
  exact verCorrect_eq_some_iff.mpr ⟨rem18_vercode v, congrArg weight hflips, he⟩

/-- Four flips lead at least four flips away from every other codeword. -/
theorem verCorrect_vercode_xor_four (v : BitVec 6) {e : BitVec 18} (he : weight e = 4) :
    verCorrect (vercode v ^^^ e) = none := by
  refine Option.eq_none_iff_forall_ne_some.mpr fun c h => ?_
  obtain ⟨hc, herrors, hfew⟩ := verCorrect_eq_some_iff.mp h
  have hv : vercode v ^^^ (vercode v ^^^ e) = e := xor_cancel_left _ _
  have hword : c.word = vercode v :=
    hasDistance_rem18.eq_of_near isRemainder_rem18.xor hc (rem18_vercode v) (w := vercode v ^^^ e) (by rw [hv]; omega)
  rw [hword, hv] at herrors
  omega

/-- Settles O58: a received word near one codeword is far from all others. -/
theorem bchInjectedErrors : Obligations.BchInjectedErrors := by
  refine ⟨fun _ _ => weight_fmtCodeword_xor, fun _ _ => weight_vercode_xor,
    fun level mask _ => fmtdecode_fmtcode_xor level mask, fun rom v e hrom h7 h40 => ⟨fun he => ?_, fun he => ?_⟩⟩
  · exact verdecode_eq_some_iff.mpr ⟨verCorrect_vercode_xor v he, validated_vercode hrom h7 h40⟩
  · rw [verdecode, verCorrect_vercode_xor_four v he]

/-! ### The commands (R263, R266, R283, R286) -/

section
variable {s : State} (hhalt : s.halt = false)
include hhalt

theorem exec_fmtenc (level : BitVec 2) (mask : BitVec 3) :
    exec (.fmtenc level mask) s = .next { s.withDone with res0 := (fmtcode level mask).setWidth 32 } := by
  rw [exec_runs (i := .fmtenc level mask) hhalt rfl rfl, ruleOf, ruleFmtenc, conclude]
  rfl

theorem exec_verenc (v : BitVec 6) :
    exec (.verenc v) s = .next { s.withDone with res0 := presentWord (versionInformation v) } := by
  rw [exec_runs (i := .verenc v) hhalt rfl rfl, ruleOf, ruleVerenc, conclude]
  rfl

theorem exec_fmtdec_of_some {raw : BitVec 15} {c : Correction 15} (h : fmtdecode raw = some c) :
    exec (.fmtdec raw) s = .next { s.withDone with
      res0 := (c.word.extractLsb' 10 5).setWidth 32, res1 := BitVec.ofNat 32 c.errors,
      res2 := (c.word ^^^ formatMask).setWidth 32 } := by
  rw [exec_runs (i := .fmtdec raw) hhalt rfl rfl, ruleOf, ruleFmtdec, h]
  rfl

theorem exec_fmtdec_of_none {raw : BitVec 15} (h : fmtdecode raw = none) :
    exec (.fmtdec raw) s = .next ((writeNullResult s).withError 2 (encode (.fmtdec raw))) := by
  rw [exec_runs (i := .fmtdec raw) hhalt rfl rfl, ruleOf, ruleFmtdec, h, conclude, raise_eq_withError rfl, errorCode]

theorem exec_verdec_of_some {raw : BitVec 18} {c : Correction 18} (h : verdecode s.rom raw = some c) :
    exec (.verdec raw) s = .next { s.withDone with
      res0 := (versionField c.word).setWidth 32, res1 := BitVec.ofNat 32 c.errors, res2 := c.word.setWidth 32 } := by
  rw [exec_runs (i := .verdec raw) hhalt rfl rfl, ruleOf, ruleVerdec, h]
  rfl

theorem exec_verdec_of_none {raw : BitVec 18} (h : verdecode s.rom raw = none) :
    exec (.verdec raw) s = .next ((writeNullResult s).withError 2 (encode (.verdec raw))) := by
  rw [exec_runs (i := .verdec raw) hhalt rfl rfl, ruleOf, ruleVerdec, h, conclude, raise_eq_withError rfl, errorCode]

end

theorem presentWord_versionInformation (v : BitVec 6) : presentWord (versionInformation v) =
    if 7 ≤ v.toNat ∧ v.toNat ≤ 40 then 0x80000000 ||| (vercode v).setWidth 32 else 0 := by
  rw [versionInformation]
  split
  · exact (append_zero_or_setWidth (k := 14) (m := 18) (1#1 ++ 0#13) (vercode v)).symm
  · rfl

/-- Settles O44: both rules always complete, and a code is its data above their remainder. -/
theorem bchEncodersComplete : Obligations.BchEncodersComplete := by
  refine ⟨fun level mask s hhalt => exec_fmtenc hhalt level mask, fun v s hhalt => ?_, fun level mask => ?_,
    fun v => ⟨versionField_vercode v, rem18_vercode v⟩⟩
  · rw [exec_verenc hhalt, presentWord_versionInformation]
  · have hunmask : fmtcode level mask ^^^ 0x5412 = fmtCodeword (level ++ mask) := fmtcode_xor_formatMask level mask
    rw [hunmask]
    exact ⟨extractLsb'_fmtCodeword _, rem15_fmtCodeword _⟩

/-- Settles O45: the rules follow their decoder's answer, and BCHUncorrectable is not fatal. -/
theorem bchDecodersResult : Obligations.BchDecodersResult :=
  ⟨fun _ _ hhalt => ⟨fun _ => exec_fmtdec_of_some hhalt, exec_fmtdec_of_none hhalt⟩,
    fun _ _ hhalt => ⟨fun _ => exec_verdec_of_some hhalt, exec_verdec_of_none hhalt⟩⟩

end Sys2Proof.Machine
end

section
/-! The halted core, NOP and SRESET (60_exceptions.md R346, 48_sequencer.md R300, R301): only SRESET passes the Halted check,
and of all a host reads or writes only STATUS shows HALT. -/

namespace Sys2Proof.Machine

/-! ### The halted core (R346) -/

theorem exec_halted {i : Instr} {s : State} (hhalt : s.halt = true) (hne : i ≠ .sreset) :
    exec i s = .next (s.withError 8 (encode i)) := by
  rw [exec_eq_command hne, command_halted hhalt, raise_eq_withError rfl, errorCode]

theorem commandWord_halted {w : Word} {s : State} (hhalt : s.halt = true) (hw : w ≠ 0x01000000) :
    commandWord w s = .next (s.withError 8 w) := by
  unfold commandWord
  split
  · next i hi =>
    obtain rfl := eq_encode_of_decode hi
    refine exec_halted hhalt ?_
    rintro rfl
    exact hw rfl
  · rw [rejectWord, if_pos hhalt, raise_eq_withError rfl, errorCode]

/-- An address is its space number and its index (R61). -/
theorem addr_ext {a b : Addr} (hspace : addrSpace a = addrSpace b) (hindex : addrIndex a = addrIndex b) : a = b := by
  simp only [addrSpace, addrIndex, BitVec.extractLsb'_toNat] at hspace hindex
  bv_omega

/-- Of the registers only STATUS, number 1, shows HALT (R23). -/
theorem readRegister_with_halt {i : Nat} (hi : i ≠ 1) (s : State) (h : Bool) :
    readRegister { s with halt := h } i = readRegister s i := by
  unfold readRegister
  split
  case h_1 => exact (hi rfl).elim
  all_goals rfl

/-- HALT is no part of any other space. -/
theorem elementAt_with_halt {a : Addr} (ha : a ≠ 1) (s : State) (h : Bool) :
    elementAt { s with halt := h } a = elementAt s a := by
  unfold elementAt
  dsimp only
  split
  case h_1 hspace => exact readRegister_with_halt (fun hindex => ha (addr_ext hspace hindex)) s h
  all_goals rfl

theorem writeRegister_with_halt (i : Nat) (w : Word) (s : State) (h : Bool) :
    writeRegister i w { s with halt := h } = { writeRegister i w s with halt := h } := by
  unfold writeRegister
  split <;> rfl

/-- No host write other than of `REG.CMD` reads or writes HALT. -/
theorem hostWrite_with_halt (a : Addr) (w : Word) (s : State) (h : Bool) :
    hostWrite a w { s with halt := h } = { hostWrite a w s with halt := h } := by
  unfold hostWrite
  dsimp only
  split
  case h_1 => exact writeRegister_with_halt _ w s h
  case h_2 | h_3 => split <;> rfl
  case h_4 => rfl

/-- Settles O7: the Halted check comes before every other one, and HALT is seen in STATUS alone. -/
theorem haltedRefusesEveryWord : Obligations.HaltedRefusesEveryWord := by
  refine ⟨fun s w rest hpending hhalt hw => ?_, fun s a h ha => elementAt_with_halt ha s h,
    fun s a w h _ => hostWrite_with_halt a w s h⟩
  rw [step_eq_commandWord hpending]
  exact commandWord_halted hhalt hw

/-! ### NOP and SRESET (R300, R301) -/

/-- Settles O28: NOP's rule is the identity. -/
theorem nopCompletes : Obligations.NopCompletes := by
  refine fun s => ⟨fun hhalt => ?_, fun hhalt => exec_halted hhalt Instr.noConfusion⟩
  rw [exec_runs (i := .nop) hhalt rfl rfl, ruleOf, conclude, complete, State.withDone]

/-- Settles O29: SRESET makes no check, and its soft reset takes memory over as it is. -/
theorem sresetCompletes : Obligations.SresetCompletes :=
  fun s => ⟨_, exec_sreset s, rfl, rfl, rfl, rfl, readByte_congr rfl rfl⟩

end Sys2Proof.Machine
end

section
/-! ENCODE is the sequence of the nine stage commands (48_sequencer.md R302, R304): a stage reads no report, and the one before
it leaves the bit it requires. -/

namespace Sys2Proof.Machine

/-! ### A stage reads no report (R80) -/

/-- The error stage `k` raises. -/
def stageError : Nat → Error
  | 1 => .dataTooLarge
  | _ => .structuralInconsistency

theorem stageRule_eq_raised {k : Nat} {s : State} (h : ¬ stageOk k s) :
    stageRule k s = .raised (stageError k) (stageRaised k s) := by
  unfold stageOk at h
  split at h
  · exact if_neg h
  · exact if_pos h
  · exact if_pos (not_not.mp (mt (remainderOk_iff s).mpr h))
  · exact (h trivial).elim

theorem stageOk_complete (k : Nat) (s : State) : stageOk k (complete s) ↔ stageOk k s := by
  unfold stageOk
  split <;> exact Iff.rfl

theorem conclude_stageRule_complete {k : Nat} (h1 : 1 ≤ k) (h9 : k ≤ 9) (w : Word) (s : State) :
    conclude w (stageRule k (complete s)) = conclude w (stageRule k s) := by
  by_cases hok : stageOk k s
  · rw [stageRule_done hok, stageRule_done ((stageOk_complete k s).mpr hok)]
    interval_cases k <;> rfl
  · rw [stageRule_eq_raised hok, stageRule_eq_raised (mt (stageOk_complete k s).mp hok)]
    interval_cases k <;> rfl

/-! ### A stage leaves the bit the next one requires (R88) -/

theorem stageDone_halt (k : Nat) (s : State) : (stageDone k s).halt = s.halt := by
  unfold stageDone
  split <;> rfl

/-- Up to its own bit a stage that completes only sets that bit. -/
theorem isValid_stageDone_of_le {j k : Nat} (h1 : 1 ≤ k) (h9 : k ≤ 9) (hj : j ≤ k) (s : State) :
    isValid j (stageDone k s) = (isValid j s || decide (j = k)) := by
  obtain rfl | h8 : k = 9 ∨ k ≤ 8 := by omega
  · exact isValid_markValid (by decide) j s
  · have hv : isValid j (stageDone k s) = isValid j (markValid k (clearStages k s)) := by interval_cases k <;> rfl
    rw [hv, isValid_markValid (by omega), isValid_clearStages (by omega)]
    rcases Nat.lt_or_eq_of_le hj with hlt | rfl
    · simp [Nat.not_le.mpr hlt]
    · simp

/-- After a stage that completed the next command is neither halted nor out of sequence. -/
theorem stageRule_next_ready {k : Nat} (h1 : 1 ≤ k) (h9 : k ≤ 9) {s t : State} (hhalt : s.halt = false)
    (h : stageRule k s = .done t) : t.halt = false ∧ isValid k t = true := by
  by_cases hok : stageOk k s
  · obtain rfl : stageDone k s = t := by simpa [stageRule_done hok] using h
    exact ⟨(stageDone_halt k s).trans hhalt, by simp [isValid_stageDone_of_le h1 h9 k.le_refl]⟩
  · simp [stageRule_eq_raised hok] at h

theorem after_eq_command {i : Instr} (h : i ≠ .sreset) (s : State) :
    after i s = command i (operandsOk i s) (readyFor i s) (ruleOf i) s := by
  rw [after, exec_eq_command h]

/-- A stage command after the stage before it runs its rule. -/
theorem after_stageCommand {k : Nat} (h2 : 2 ≤ k) (h9 : k ≤ 9) {s : State} (hhalt : s.halt = false)
    (hready : isValid (k - 1) s = true) :
    after (stageCommand k) s = conclude (encode (stageCommand k)) (stageRule k s) := by
  have hchecks : operandsOk (stageCommand k) s = true ∧ readyFor (stageCommand k) s = isValid (k - 1) s := by
    interval_cases k <;> exact ⟨rfl, rfl⟩
  obtain ⟨ho, hr⟩ := hchecks
  rw [after_eq_command (by interval_cases k <;> exact Instr.noConfusion), ho, hr, hready, command_runs hhalt,
    ruleOf_stageCommand (by omega) h9]

/-! ### The stage commands one after another (R304) -/

/-- The rest of a sequence of commands from the state `t` that the last one left: nothing more if that one raised. -/
def issueRest (is : List Instr) (t : State) : State := if t.err then t else issue is t

theorem issue_cons (i : Instr) (is : List Instr) (s : State) : issue (i :: is) s = issueRest is (after i s) := rfl

theorem issueRest_raise (is : List Instr) (e : Error) (w : Word) (t : State) :
    issueRest is (raise e w t) = raise e w t := rfl

theorem issueRest_complete (is : List Instr) (t : State) : issueRest is (complete t) = issue is (complete t) := rfl

/-- The rules of the given stages after a rule that ended in `r`, the first error ending the sequence (R302). -/
def thenStages (r : RuleResult) (ks : List Nat) : RuleResult := ks.foldl (fun r k => r.andThen (stageRule k)) r

theorem thenStages_cons (r : RuleResult) (k : Nat) (ks : List Nat) :
    thenStages r (k :: ks) = thenStages (r.andThen (stageRule k)) ks := rfl

theorem thenStages_raised (e : Error) (t : State) (ks : List Nat) : thenStages (.raised e t) ks = .raised e t := by
  induction ks with
  | nil => rfl
  | cons k ks ih => exact ih

theorem stageSequence_eq_thenStages (s : State) : stageSequence s = thenStages (ruleAnalyze s) (List.range' 2 8) := by
  have hstages : List.range' 2 8 = [2, 3, 4, 5, 6, 7, 8, 9] := rfl
  rw [hstages, stageSequence]
  simp only [thenStages, List.foldl_cons, List.foldl_nil, stageRule]

/-- The last `n` stage commands end as their rules do, but for the word an error reports. -/
theorem issueRest_stages {n k : Nat} (h2 : 2 ≤ k) (hn : k + n = 10) {r : RuleResult}
    (hr : ∀ t, r = .done t → t.halt = false ∧ isValid (k - 1) t = true) (w : Word) :
    ∃ w', issueRest ((List.range' k n).map stageCommand) (conclude w r) = conclude w' (thenStages r (List.range' k n)) := by
  induction n generalizing k r w with
  | zero => exact ⟨w, ite_self _⟩
  | succ n ih =>
    rw [List.range'_succ, List.map_cons, thenStages_cons]
    cases r with
    | raised e t => exact ⟨w, by rw [andThen_raised, thenStages_raised, conclude, issueRest_raise]⟩
    | done t =>
      obtain ⟨hhalt, hready⟩ := hr t rfl
      rw [conclude, issueRest_complete, issue_cons, after_stageCommand (s := complete t) h2 (by omega) hhalt hready,
        conclude_stageRule_complete (by omega) (by omega), andThen_done]
      exact ih (by omega) (by omega) (fun u hu => stageRule_next_ready (by omega) (by omega) hhalt hu) _

/-! ### ENCODE (R302) -/

theorem clearStages_clearStages (lo : Nat) (s : State) : clearStages lo (clearStages lo s) = clearStages lo s := by
  simp [clearStages, BitVec.and_assoc]

/-- ANALYZE clears the stage bits itself, so ENCODE's clearing before it changes nothing. -/
theorem ruleEncode_eq_stageSequence (s : State) : ruleEncode s = stageSequence s := by
  have hrecord : recordAnalysis (clearStages ANALYZED s) = recordAnalysis s := by
    rw [recordAnalysis, clearStages_clearStages]
    exact rfl
  have hanalyze : ruleAnalyze (clearStages ANALYZED s) = ruleAnalyze s := by
    rw [ruleAnalyze, hrecord]
    exact rfl
  rw [ruleEncode, stageSequence, hanalyze, stageSequence]

/-- ENCODE and the nine stage commands end alike, but for the word an error reports: at ANALYZE's checks, which are ENCODE's
own, or in the stages. -/
theorem encode_conclude_pipeline (s : State) :
    ∃ r w, after .encode s = conclude 0x3F000000 r ∧ issue pipeline s = conclude w r := by
  have hencode : after .encode s = command .encode (versionInRange s) (isValid GFRDY s) ruleEncode s := rfl
  have hpipeline : issue pipeline s = issueRest ((List.range' 2 8).map stageCommand)
      (command .analyze (versionInRange s) (isValid GFRDY s) ruleAnalyze s) := rfl
  rw [hencode, hpipeline]
  cases hhalt : s.halt with
  | true => exact ⟨.raised .halted s, _, command_halted hhalt, by rw [command_halted hhalt, issueRest_raise, conclude]⟩
  | false =>
    cases versionInRange s with
    | false =>
      exact ⟨.raised .badOperand s, _, command_badOperand hhalt,
        by rw [command_badOperand hhalt, issueRest_raise, conclude]⟩
    | true =>
      cases isValid GFRDY s with
      | false =>
        exact ⟨.raised .sequenceError s, _, command_notReady hhalt,
          by rw [command_notReady hhalt, issueRest_raise, conclude]⟩
      | true =>
        rw [command_runs hhalt, command_runs hhalt]
        obtain ⟨w, hw⟩ := issueRest_stages (k := 2) (n := 8) (r := ruleAnalyze s) (by decide) rfl
          (fun t ht => stageRule_next_ready (k := 1) (by decide) (by decide) hhalt ht) (encode .analyze)
        rw [← stageSequence_eq_thenStages, ← ruleEncode_eq_stageSequence] at hw
        exact ⟨ruleEncode s, w, rfl, hw⟩

/-- Settles O19: both end in one rule result, and the word of the report matters to an error only. -/
theorem encodeIsTheStageSequence : Obligations.EncodeIsTheStageSequence := by
  intro s
  obtain ⟨r, w, hencode, hpipeline⟩ := encode_conclude_pipeline s
  rw [hencode, hpipeline]
  cases r with
  | done t => exact ⟨rfl, fun _ => rfl, fun herr => Bool.noConfusion herr⟩
  | raised e t => exact ⟨rfl, fun herr => Bool.noConfusion herr, fun _ => rfl⟩

end Sys2Proof.Machine
end

section
/-! ENCODE of a text that fits completes (48_sequencer.md R302, 49_config_tables.md R322, R323): with fitting tables no count
exceeds its register, so RSSPLIT's and MATPLACE's checks hold. -/

namespace Sys2Proof.Machine

/-! ### The first stages of a run -/

/-- The state after the first `k` stages where all complete. -/
def stagesTo : Nat → State → State
  | 0, s => s
  | k + 1, s => stageDone (k + 1) (stagesTo k s)

theorem allStages_eq_stagesTo (s : State) : allStages s = stagesTo 9 s := rfl

theorem hostSideOf_stagesTo {k : Nat} (h9 : k ≤ 9) (s : State) : hostSideOf (stagesTo k s) = hostSideOf s := by
  induction k with
  | zero => rfl
  | succ k ih =>
    exact ((writesOnlyOutputs_stageDone (by omega) h9 _).hostSideOf_eq (by omega) h9).trans (ih (by omega))

theorem stagesTo_inputs {k : Nat} (h9 : k ≤ 9) (s : State) :
    (stagesTo k s).rom = s.rom ∧ (stagesTo k s).version = s.version ∧ (stagesTo k s).level = s.level ∧
      (stagesTo k s).len = s.len ∧ (stagesTo k s).mem = s.mem := by
  obtain ⟨-, hrom, hversion, hlevel, hlen, hmem, -⟩ := hostSideOf_eq_iff.mp (hostSideOf_stagesTo h9 s)
  exact ⟨hrom, hversion, hlevel, hlen, hmem⟩

theorem stagesTo_halt (k : Nat) (s : State) : (stagesTo k s).halt = s.halt := by
  induction k with
  | zero => rfl
  | succ k ih => exact (stageDone_halt _ _).trans ih

/-- Only ANALYZE writes NOTICE (R106). -/
theorem stageDone_notice {k : Nat} (h : k ≠ 1) (s : State) : (stageDone k s).notice = s.notice := by
  unfold stageDone
  split
  case h_1 => exact (h rfl).elim
  all_goals rfl

theorem stagesTo_notice (k : Nat) (s : State) : (stagesTo (k + 1) s).notice = kanjiText (textBytes s) := by
  induction k with
  | zero => rfl
  | succ k ih => exact (stageDone_notice (by omega) _).trans ih

theorem currentCap_stagesTo {k : Nat} (h9 : k ≤ 9) (s : State) : currentCap (stagesTo k s) = currentCap s := by
  obtain ⟨hrom, hversion, hlevel, -, -⟩ := stagesTo_inputs h9 s
  rw [currentCap, hrom, hversion, hlevel, currentCap]

theorem currentPlan_stagesTo {k : Nat} (h9 : k ≤ 9) (s : State) : currentPlan (stagesTo k s) = currentPlan s := by
  obtain ⟨hrom, hversion, hlevel, -, -⟩ := stagesTo_inputs h9 s
  rw [currentPlan, hrom, hversion, hlevel, currentPlan]

theorem isValid_stagesTo {k : Nat} (h9 : k ≤ 9) {s : State} (hready : isValid GFRDY s = true) {j : Nat} (hj : j ≤ k) :
    isValid j (stagesTo k s) = true := by
  induction k with
  | zero =>
    obtain rfl := Nat.le_zero.mp hj
    exact hready
  | succ k ih =>
    rw [stagesTo, isValid_stageDone_of_le (by omega) h9 hj]
    rcases Nat.lt_or_eq_of_le hj with hlt | rfl
    · rw [ih (by omega) (by omega), Bool.true_or]
    · rw [decide_eq_true rfl, Bool.or_true]

/-! ### The counts of a run (R155, R158, R205) -/

theorem packedState_ndcw (s : State) : (packedState s).ndcw = BitVec.ofNat 12 (currentCap s / 8) := rfl

theorem splitState_counts (s : State) :
    (splitState s).ndcw = s.ndcw ∧ (splitState s).nblk = BitVec.ofNat 7 (planBlocks (currentPlan s)) ∧
      (splitState s).nec = BitVec.ofNat 8 (currentPlan s).ec := by
  rw [← blockLengths_length, ← cutBlocks_length (blockLengths (currentPlan s).groups) s.dcw]
  exact ⟨rfl, rfl, rfl⟩

theorem interleavedState_nicw (s : State) :
    (interleavedState s).nicw = BitVec.ofNat 12 (s.ndcw.toNat + s.nblk.toNat * s.nec.toNat) := rfl

theorem initialisedState_nicw (s : State) : (initialisedState s).nicw = s.nicw := rfl

/-- The number of codewords NICW counts, each factor cut to its register. -/
theorem firstStages_nicw_eq (s : State) : (firstStages s).nicw =
    BitVec.ofNat 12 ((BitVec.ofNat 12 (currentCap s / 8)).toNat +
      (BitVec.ofNat 7 (planBlocks (currentPlan s))).toNat * (BitVec.ofNat 8 (currentPlan s).ec).toNat) := by
  obtain ⟨hndcw, hnblk, hnec⟩ := splitState_counts (packedState (analyzedState s))
  have hcap : currentCap (analyzedState s) = currentCap s := currentCap_stagesTo (k := 1) (by decide) s
  have hplan : currentPlan (packedState (analyzedState s)) = currentPlan s := currentPlan_stagesTo (k := 2) (by decide) s
  rw [firstStages, initialisedState_nicw, interleavedState_nicw, hndcw, hnblk, hnec, packedState_ndcw, hcap, hplan]

theorem PlanPremise.ec_le {rom : Rom} {v : Nat} {lc : BitVec 2} (h : PlanPremise rom v lc) : (planOf rom v lc).ec ≤ 254 := by
  obtain ⟨hlength, hgroups, -, -, -⟩ := h
  have hpos : 0 < (planOf rom v lc).groups.length := by omega
  obtain ⟨-, hk, hsum⟩ := hgroups _ (List.getElem_mem hpos)
  omega

section
variable {s : State} (htables : TablesFit s) (h40 : s.version.toNat ≤ 40)
include htables h40

/-- The codewords of a symbol fit its data cells, so their number fits 12 bits. -/
theorem totalCodewords_lt : totalCodewords s.rom s.version.toNat s.level < 2 ^ 12 := by
  obtain ⟨-, ⟨hfit, -⟩, -⟩ := htables
  have hndata : (initialisedState s).ndata.toNat = dataCells s.rom s.version.toNat := initialisedState_ndata h40
  have hlt := (initialisedState s).ndata.isLt
  omega

/-- RSSPLIT finds as many codewords as the plan takes (R156). -/
theorem planData_currentPlan : planData (currentPlan s).groups = (BitVec.ofNat 12 (currentCap s / 8)).toNat := by
  have hlt : currentCap s / 8 < 2 ^ 12 := (Nat.le_add_right _ _).trans_lt (totalCodewords_lt htables h40)
  obtain ⟨⟨-, -, -, -, hdata⟩, -, -⟩ := htables
  rw [BitVec.toNat_ofNat, Nat.mod_eq_of_lt hlt]
  exact hdata

theorem firstStages_nicw : (firstStages s).nicw.toNat = totalCodewords s.rom s.version.toNat s.level := by
  have hlt : currentCap s / 8 + planBlocks (currentPlan s) * (currentPlan s).ec < 2 ^ 12 := totalCodewords_lt htables h40
  obtain ⟨hplan, -, -⟩ := htables
  have hec : (currentPlan s).ec ≤ 254 := hplan.ec_le
  obtain ⟨-, -, -, hblocks, -⟩ : _ ∧ _ ∧ _ ∧ planBlocks (currentPlan s) ≤ 81 ∧ _ := hplan
  rw [firstStages_nicw_eq, BitVec.toNat_ofNat, BitVec.toNat_ofNat, BitVec.toNat_ofNat, BitVec.toNat_ofNat,
    Nat.mod_eq_of_lt ((Nat.le_add_right _ _).trans_lt hlt), Nat.mod_eq_of_lt (hblocks.trans_lt (by decide)),
    Nat.mod_eq_of_lt (hec.trans_lt (by decide)), Nat.mod_eq_of_lt hlt]
  exact rfl

/-- MATPLACE's remainder is in 0..7 (R205). -/
theorem remainderOk_firstStages : remainderOk (firstStages s) := by
  obtain ⟨hrom, hversion, -⟩ := stagesTo_inputs (k := 4) (by decide) s
  have h40' : (stagesTo 4 s).version.toNat ≤ 40 := by rwa [hversion]
  have hndata := initialisedState_ndata h40'
  rw [hrom, hversion] at hndata
  have hcells : (firstStages s).ndata.toNat = dataCells s.rom s.version.toNat := hndata
  rw [remainderOk, firstStages_nicw htables h40, hcells]
  obtain ⟨-, hfit, -⟩ := htables
  exact hfit

theorem ruleEncode_done (hfits : textFits s = true) : ruleEncode s = .done (stagesTo 9 s) := by
  rw [ruleEncode_eq_stageSequence, ← allStages_eq_stagesTo]
  exact stageSequence_done hfits (planData_currentPlan htables h40) (remainderOk_firstStages htables h40)

end

theorem ruleEncode_raised {s : State} (hfits : textFits s = false) :
    ruleEncode s = .raised .dataTooLarge (recordAnalysis s) := by
  have hanalyze : ruleAnalyze s = .raised .dataTooLarge (recordAnalysis s) := if_neg (by simp [hfits])
  rw [ruleEncode_eq_stageSequence, stageSequence_eq_thenStages, hanalyze, thenStages_raised]

/-! ### What ENCODE leaves (R24, R106) -/

theorem stagesTo_valid {s : State} (hready : isValid GFRDY s = true) : (stagesTo 9 s).valid &&& 0x3FF = 0x3FF := by
  refine BitVec.eq_of_getLsbD_eq fun j hj => ?_
  rw [BitVec.getLsbD_and]
  by_cases h9 : j ≤ 9
  · have hbit : (stagesTo 9 s).valid.getLsbD j = true := isValid_stagesTo (k := 9) (by decide) hready h9
    rw [hbit, Bool.true_and]
  · have hmask : (0x3FF : BitVec 12).getLsbD j = false := by
      obtain rfl | rfl : j = 10 ∨ j = 11 := by omega
      · rfl
      · rfl
    rw [hmask, Bool.and_false]

theorem recordAnalysis_valid (s : State) : (recordAnalysis s).valid &&& 0x3FE = 0 := by
  have hvalid : (recordAnalysis s).valid = s.valid &&& ~~~stagesFrom ANALYZED := rfl
  have hmask : ~~~stagesFrom ANALYZED &&& 0x3FE = 0#12 := by decide
  rw [hvalid, BitVec.and_assoc, hmask]
  exact BitVec.and_zero

/-- The least version is at most 40, so MINVER holds it whole. -/
theorem recordAnalysis_minver (s : State) : (recordAnalysis s).minver.toNat = (analyzedMinimum s).getD 40 := by
  have hle : (analyzedMinimum s).getD 40 ≤ 40 := by
    cases h : analyzedMinimum s with
    | none => exact Nat.le_refl _
    | some v =>
      obtain ⟨-, h40, -⟩ := minimumVersion_eq_some_iff.mp h
      exact h40
  exact Nat.mod_eq_of_lt (hle.trans_lt (by decide))

/-! ### ENCODE (R302) -/

section
variable {s : State} (hhalt : s.halt = false) (hready : s.valid.getLsbD GFRDY = true)
  (hrange : 1 ≤ s.version.toNat ∧ s.version.toNat ≤ 40)
include hhalt hready hrange

theorem exec_encode_of_fits (htables : TablesFit s) (hfits : textFits s = true) :
    exec .encode s = .next (complete (stagesTo 9 s)) := by
  rw [exec_runs (i := .encode) hhalt (decide_eq_true hrange) hready, ruleOf, ruleEncode_done htables hrange.2 hfits,
    conclude]

theorem exec_encode_of_not_fits (hfits : textFits s = false) :
    exec .encode s = .next ((recordAnalysis s).withError 1 0x3F000000) := by
  rw [exec_runs (i := .encode) hhalt (decide_eq_true hrange) hready, ruleOf, ruleEncode_raised hfits, conclude,
    raise_eq_withError rfl]
  exact rfl

end

/-- Settles O20: fitting tables let every stage after ANALYZE complete, and DataTooLarge ends ENCODE in ANALYZE. -/
theorem encodeCompletes : Obligations.EncodeCompletes := by
  intro s hhalt hready h1 h40
  refine ⟨fun htables hfits => ?_, fun hfits => ?_⟩
  · have hexec := exec_encode_of_fits hhalt hready ⟨h1, h40⟩ htables hfits
    obtain ⟨-, hversion, hlevel, hlen, hmem⟩ := stagesTo_inputs (k := 9) (by decide) s
    have hhalt' := (stagesTo_halt 9 s).trans hhalt
    have hvalid := stagesTo_valid hready
    have hnotice := stagesTo_notice 8 s
    generalize stagesTo 9 s = t at *
    exact ⟨_, hexec, rfl, rfl, rfl, rfl, hhalt', hvalid, hversion, hlevel, hlen, hmem, hnotice⟩
  · exact ⟨_, exec_encode_of_not_fits hhalt hready ⟨h1, h40⟩ hfits, rfl, rfl, rfl, rfl, recordAnalysis_valid s, rfl, rfl,
      recordAnalysis_minver s, rfl⟩

end Sys2Proof.Machine
end

section
/-! How a command ends (30_encoding.md R80, 60_exceptions.md R340, R341, R344): one report of success or of an error of its own,
and HALT after the fatal error only. -/

namespace Sys2Proof.Machine

/-! ### No rule but SRESET's touches HALT (R341) -/

theorem RuleResult.All.mono {P Q : State → Prop} {r : RuleResult} (hr : r.All P) (h : ∀ t, P t → Q t) : r.All Q := by
  cases r with
  | done t => exact h t hr
  | raised e t => exact h t hr

theorem RuleResult.LeavesPipeline.all {s : State} {r : RuleResult} (h : r.LeavesPipeline s) :
    r.All (Machine.LeavesPipeline s) := by
  cases r with
  | done t => exact h
  | raised e t => exact h.2

theorem LeavesPipeline.halt_eq {s t : State} (h : LeavesPipeline s t) : t.halt = s.halt := (congrArg State.halt h.1 :)

theorem WritesOnlyOutputs.halt_eq {k : Nat} {s t : State} (h : WritesOnlyOutputs k s t) (h1 : 1 ≤ k) (h9 : k ≤ 9) :
    t.halt = s.halt :=
  .trans (by interval_cases k <;> rfl) (congrArg State.halt h)

/-- A stage rule writes its outputs only, however it ends. -/
theorem stageRule_writesOnlyOutputs {k : Nat} (h1 : 1 ≤ k) (h9 : k ≤ 9) (s : State) :
    (stageRule k s).All (WritesOnlyOutputs k s) := by
  by_cases hok : stageOk k s
  · rw [stageRule_done hok]
    exact writesOnlyOutputs_stageDone h1 h9 s
  · rw [stageRule_eq_raised hok]
    exact writesOnlyOutputs_stageRaised h1 h9 s

theorem ruleEncode_halt (s : State) : (ruleEncode s).All fun t => t.halt = s.halt := by
  refine stageSequence_all (fun k h1 h9 t ht => ?_) (clearStages_halt ANALYZED s)
  exact (stageRule_writesOnlyOutputs h1 h9 t).mono fun u hu => (hu.halt_eq h1 h9).trans ht

theorem ruleOf_halt {i : Instr} (hi : i ≠ .sreset) {s : State} (ho : operandsOk i s = true) :
    (ruleOf i s).All fun t => t.halt = s.halt := by
  rcases instr_kind i with ⟨k, h1, h9, rfl⟩ | hi | rfl | rfl | rfl
  · rw [ruleOf_stageCommand h1 h9]
    exact (stageRule_writesOnlyOutputs h1 h9 s).mono fun t ht => ht.halt_eq h1 h9
  · exact (ruleOf_leavesPipeline hi ho).all.mono fun t ht => ht.halt_eq
  · exact rfl
  · exact (hi rfl).elim
  · exact ruleEncode_halt s

/-! ### The errors of a command (R80, R340, R342) -/

/-- The errors the command may raise from a state, by the check or the rule that raises them. -/
inductive MayRaise (i : Instr) (s : State) : Error → Prop
  | halted (hhalt : s.halt = true) (hi : i ≠ .sreset) : MayRaise i s .halted
  | badOperand (hhalt : s.halt = false) (ho : operandsOk i s = false) : MayRaise i s .badOperand
  | sequenceError (hhalt : s.halt = false) (hr : readyFor i s = false) : MayRaise i s .sequenceError
  | rule {e : Error} (hhalt : s.halt = false) (he : e ∈ ruleErrors i) : MayRaise i s e

/-- Every command ends in the report of success, not halted, or in that of one of its errors, HALT as it was but for the fatal
error. -/
theorem exec_report_cases {i : Instr} {s t : State} (h : exec i s = .next t) :
    (∃ u, t = complete u ∧ u.halt = false ∧ (s.halt = false ∨ i = .sreset)) ∨
      ∃ e u, t = raise e (encode i) u ∧ u.halt = s.halt ∧ MayRaise i s e := by
  by_cases hi : i = .sreset
  · subst hi
    injection h with h
    exact .inl ⟨_, h.symm, rfl, .inr rfl⟩
  · rw [exec_eq_command hi] at h
    injection h with h
    rw [← h]
    rcases command_cases i (operandsOk i s) (readyFor i s) (ruleOf i) s with ⟨hhalt, hc⟩ | ⟨hhalt, ho, hc⟩ |
      ⟨hhalt, -, hr, hc⟩ | ⟨hhalt, ho, -, ⟨u, hu, hc⟩ | ⟨e, u, hu, hc⟩⟩
    · exact .inr ⟨_, s, hc, rfl, .halted hhalt hi⟩
    · exact .inr ⟨_, s, hc, rfl, .badOperand hhalt ho⟩
    · exact .inr ⟨_, s, hc, rfl, .sequenceError hhalt hr⟩
    · have hkeeps := ruleOf_halt hi ho
      rw [hu] at hkeeps
      exact .inl ⟨u, hc, hkeeps.trans hhalt, .inl hhalt⟩
    · have hkeeps := ruleOf_halt hi ho
      have hraises := ruleOf_raisesOnly i s
      rw [hu] at hkeeps hraises
      exact .inr ⟨e, u, hc, hkeeps, .rule hhalt hraises⟩

/-! ### Which commands raise which error (R340) -/

section
variable {i : Instr}

theorem dataTooLarge_mem_ruleErrors (h : .dataTooLarge ∈ ruleErrors i) : i = .analyze ∨ i = .encode := by
  have h := decide_eq_true h
  cases i with
  | analyze => exact .inl rfl
  | encode => exact .inr rfl
  | _ => exact Bool.noConfusion h

theorem bchUncorrectable_mem_ruleErrors (h : .bchUncorrectable ∈ ruleErrors i) :
    (∃ raw, i = .fmtdec raw) ∨ ∃ raw, i = .verdec raw := by
  have h := decide_eq_true h
  cases i with
  | fmtdec raw => exact .inl ⟨raw, rfl⟩
  | verdec raw => exact .inr ⟨raw, rfl⟩
  | _ => exact Bool.noConfusion h

theorem structuralInconsistency_mem_ruleErrors (h : .structuralInconsistency ∈ ruleErrors i) :
    i = .rssplit ∨ i = .matplace ∨ i = .encode := by
  have h := decide_eq_true h
  cases i with
  | rssplit => exact .inl rfl
  | matplace => exact .inr (.inl rfl)
  | encode => exact .inr (.inr rfl)
  | _ => exact Bool.noConfusion h

theorem rsUncorrectable_mem_ruleErrors (h : .rsUncorrectable ∈ ruleErrors i) : ∃ len n, i = .rscor len n := by
  have h := decide_eq_true h
  cases i with
  | rscor len n => exact ⟨len, n, rfl⟩
  | _ => exact Bool.noConfusion h

end

/-- The commands whose operands R87 bounds. -/
theorem ranged_of_not_operandsOk {i : Instr} {s : State} (h : operandsOk i s = false) :
    (∃ n, i = .gfgen n) ∨ (∃ k n, i = .rsenc k n) ∨ (∃ len n, i = .rssyn len n) ∨ (∃ len n, i = .rscor len n) ∨
      i = .analyze ∨ i = .encode := by
  cases i <;> simp_all [operandsOk]

/-- While GFRDY is set only the stages after the first can be out of sequence (R88). -/
theorem stage_of_not_readyFor {i : Instr} {s : State} (h : readyFor i s = false) (hready : s.valid.getLsbD GFRDY = true) :
    ∃ k, 2 ≤ k ∧ k ≤ 9 ∧ i = stageCommand k := by
  have hnot0 : requiredBit i ≠ some GFRDY := fun hbit => by simp_all [readyFor, isValid]
  have hnotNone : requiredBit i ≠ none := fun hbit => by simp_all [readyFor]
  rcases instr_kind i with ⟨k, h1, h9, rfl⟩ | hi | rfl | rfl | rfl
  · obtain rfl | h2 : k = 1 ∨ 2 ≤ k := by omega
    · exact (hnot0 rfl).elim
    · exact ⟨k, h2, h9, rfl⟩
  · cases i <;> simp_all [requiredBit, standAlone]
  · exact (hnotNone rfl).elim
  · exact (hnotNone rfl).elim
  · exact (hnot0 rfl).elim

theorem requiredBit_of_not_readyFor {i : Instr} {s : State} (h : readyFor i s = false) : requiredBit i ≠ none := fun hbit => by
  simp [readyFor, hbit] at h

/-- The codes of R340 tell the errors apart. -/
theorem errorCode_injective : Function.Injective errorCode := by
  intro e e'
  cases e <;> cases e' <;> decide

theorem errorCode_mem_iff (e : Error) : errorCode e ∈ [1, 2, 3, 4, 5, 7, 8#4] ↔ e ≠ .illegalCommand := by
  cases e <;> decide

/-- A rule raises none of the errors of the checks. -/
theorem not_mem_ruleErrors {e : Error} (he : ¬ errorCode e ≤ 4) (i : Instr) : e ∉ ruleErrors i :=
  mt (ruleErrors_errorCode_le i e) he

section
variable {i : Instr} {s : State}

theorem MayRaise.ne_illegalCommand {e : Error} (h : MayRaise i s e) : e ≠ .illegalCommand := by
  rintro rfl
  cases h with
  | rule _ he => exact not_mem_ruleErrors (by decide) i he

theorem MayRaise.mem_ruleErrors {e : Error} (h : MayRaise i s e) (hcode : errorCode e ≤ 4) : e ∈ ruleErrors i := by
  cases h with
  | halted => exact absurd hcode (by decide)
  | badOperand => exact absurd hcode (by decide)
  | sequenceError => exact absurd hcode (by decide)
  | rule _ he => exact he

theorem MayRaise.not_operandsOk (h : MayRaise i s .badOperand) : operandsOk i s = false := by
  cases h with
  | badOperand _ ho => exact ho
  | rule _ he => exact (not_mem_ruleErrors (by decide) i he).elim

theorem MayRaise.not_readyFor (h : MayRaise i s .sequenceError) : readyFor i s = false := by
  cases h with
  | sequenceError _ hr => exact hr
  | rule _ he => exact (not_mem_ruleErrors (by decide) i he).elim

theorem MayRaise.eq_halted_iff {e : Error} (h : MayRaise i s e) : e = .halted ↔ s.halt = true ∧ i ≠ .sreset := by
  cases h with
  | halted hhalt hi => simp [hhalt, hi]
  | badOperand hhalt _ => simp [hhalt]
  | sequenceError hhalt _ => simp [hhalt]
  | rule hhalt he =>
    have hne : e ≠ .halted := fun heq => not_mem_ruleErrors (by decide) i (heq ▸ he)
    simp [hhalt, hne]

end

/-- Settles O10: a command ends in one report, and each code is that of one error, which one check or rule raises. -/
theorem everyCommandReportsOnce : Obligations.EveryCommandReportsOnce := by
  intro i s t h
  rcases exec_report_cases h with ⟨u, rfl, -, hs⟩ | ⟨e, u, rfl, -, he⟩
  · refine ⟨rfl, fun _ => ⟨rfl, rfl⟩, nofun, nofun, nofun, nofun, nofun, nofun, nofun, nofun, fun ⟨hhalt, hi⟩ => ?_⟩
    rcases hs with hs | hs
    · exact Bool.noConfusion (hs.symm.trans hhalt)
    · exact (hi hs).elim
  · have hcode : ∀ {e'}, (raise e (encode i) u).errcode = errorCode e' → e = e' := fun hc => errorCode_injective hc
    refine ⟨rfl, nofun, fun _ => ⟨rfl, (errorCode_mem_iff e).mpr he.ne_illegalCommand⟩, fun hc => ?_, fun hc => ?_,
      fun hc => ?_, fun hc => ?_, fun hc => ?_, fun hc => ?_, ?_⟩
    · obtain rfl : e = .dataTooLarge := hcode hc
      exact dataTooLarge_mem_ruleErrors (he.mem_ruleErrors (by decide))
    · obtain rfl : e = .bchUncorrectable := hcode hc
      exact bchUncorrectable_mem_ruleErrors (he.mem_ruleErrors (by decide))
    · obtain rfl : e = .structuralInconsistency := hcode hc
      exact structuralInconsistency_mem_ruleErrors (he.mem_ruleErrors (by decide))
    · obtain rfl : e = .rsUncorrectable := hcode hc
      exact rsUncorrectable_mem_ruleErrors (he.mem_ruleErrors (by decide))
    · obtain rfl : e = .sequenceError := hcode hc
      exact ⟨requiredBit_of_not_readyFor he.not_readyFor, stage_of_not_readyFor he.not_readyFor⟩
    · obtain rfl : e = .badOperand := hcode hc
      exact ranged_of_not_operandsOk he.not_operandsOk
    · rw [← he.eq_halted_iff]
      exact ⟨fun hc => hcode hc, fun heq => congrArg errorCode heq⟩

/-! ### HALT (R344, R346) -/

/-- Code 3 is StructuralInconsistency's, which sets HALT. -/
theorem halt_of_errcode {i : Instr} {s t : State} (h : exec i s = .next t) (hcode : t.errcode = 3) : t.halt = true := by
  rcases exec_report_cases h with ⟨u, rfl, -⟩ | ⟨e, u, rfl, -⟩
  · exact nomatch hcode
  · obtain rfl : e = .structuralInconsistency := errorCode_injective hcode
    exact Bool.or_true _

/-- A command that sets HALT ends in StructuralInconsistency, of its rule. -/
theorem structuralInconsistency_of_halt {i : Instr} {s t : State} (h : exec i s = .next t) (hs : s.halt = false)
    (ht : t.halt = true) : t.err = true ∧ t.errcode = 3 ∧ (i = .rssplit ∨ i = .matplace ∨ i = .encode) := by
  rcases exec_report_cases h with ⟨u, rfl, hu, -⟩ | ⟨e, u, rfl, hu, he⟩
  · exact absurd (hu.symm.trans ht) Bool.false_ne_true
  · have hfatal : isFatal e = true := by simpa [hu, hs] using ht
    obtain rfl : e = .structuralInconsistency := beq_iff_eq.mp hfatal
    exact ⟨rfl, rfl, structuralInconsistency_mem_ruleErrors (he.mem_ruleErrors (by decide))⟩

/-- Only SRESET of the commands leaves HALT (R346). -/
theorem eq_sreset_of_halt {i : Instr} {s t : State} (h : exec i s = .next t) (hs : s.halt = true) (ht : t.halt = false) :
    i = .sreset := by
  by_contra hi
  rw [exec_halted hs hi] at h
  injection h with h
  rw [← h] at ht
  exact Bool.noConfusion (hs.symm.trans ht)

theorem rejectWord_halt (w : Word) (s : State) : (rejectWord w s).halt = s.halt := by
  unfold rejectWord
  split <;> exact Bool.or_false _

theorem hostRead_halt (a : Addr) (s : State) : (hostRead a s).halt = s.halt := by
  obtain ⟨w, n, h⟩ := hostRead_cases a s
  rw [h]

theorem hostWrite_halt (a : Addr) (w : Word) (s : State) : (hostWrite a w s).halt = s.halt := by
  rcases hostWrite_cases a w s with h | h | h | h | ⟨i, -, h⟩ | ⟨i, -, h⟩ <;> rw [h] <;> exact rfl

/-- A step that changes HALT is the reset or a command. -/
theorem step_halt_cases {s t : State} (h : step s = .next t) :
    t.halt = s.halt ∨ (s.pending.head? = some .reset ∧ t.halt = false) ∨
      ∃ i rest, s.pending.head? = some (.write cmdAddr (encode i)) ∧ exec i { s with pending := rest } = .next t := by
  rcases step_cases h with ⟨-, rfl⟩ | ⟨w, rest, i, hp, hd, he⟩ | ⟨w, rest, e, -, -, rfl⟩ | ⟨a, rest, -, rfl⟩ |
    ⟨a, w, rest, -, -, rfl⟩ | ⟨rest, hp, rfl⟩
  · exact .inl rfl
  · exact .inr (.inr ⟨i, rest, by rw [hp, eq_encode_of_decode hd, List.head?_cons], he⟩)
  · exact .inl (rejectWord_halt w _)
  · exact .inl (hostRead_halt a _)
  · exact .inl (hostWrite_halt a w _)
  · exact .inr (.inl ⟨by rw [hp, List.head?_cons], rfl⟩)

/-- Settles O11: of the host events only the reset and the commands touch HALT, and of the commands only SRESET clears it and
only StructuralInconsistency sets it. -/
theorem haltIsSticky : Obligations.HaltIsSticky := by
  refine ⟨fun s t h hs ht => ?_, fun s t h hs ht => ?_, fun i s t => halt_of_errcode⟩
  · rcases step_halt_cases h with heq | ⟨hp, -⟩ | ⟨i, rest, hp, he⟩
    · exact Bool.noConfusion (hs.symm.trans (heq.symm.trans ht))
    · exact .inl hp
    · obtain rfl := eq_sreset_of_halt he hs ht
      exact .inr hp
  · rcases step_halt_cases h with heq | ⟨-, ht'⟩ | ⟨i, rest, hp, he⟩
    · exact Bool.noConfusion (hs.symm.trans (heq.symm.trans ht))
    · exact Bool.noConfusion (ht'.symm.trans ht)
    · obtain ⟨herr, hcode, hi⟩ := structuralInconsistency_of_halt he hs ht
      refine ⟨herr, hcode, ?_⟩
      rcases hi with rfl | rfl | rfl
      · exact .inl hp
      · exact .inr (.inl hp)
      · exact .inr (.inr hp)

/-! ### A step with a command (R22, R80) -/

/-- Settles O4: the word decodes to the command, and a command's own word does. -/
theorem stepRunsDecodedCommand : Obligations.StepRunsDecodedCommand := by
  have hstep : ∀ (s : State) (w : Word) (rest : List HostEvent) (i : Instr), s.pending = .write cmdAddr w :: rest →
      decode w = .ok i → step s = exec i { s with pending := rest } := fun s w rest i hpending hd => by
    rw [step_eq_commandWord hpending, commandWord, hd]
  refine ⟨hstep, fun s i => hstep _ _ s.pending i rfl ?_⟩
  rw [Nat.mod_eq_of_lt (encode i).isLt, BitVec.ofNat_toNat, BitVec.setWidth_eq]
  exact decode_encode i

end Sys2Proof.Machine
end

section
/-! Every step keeps the control invariant (10_state.md R23 to R28, R47, 20_memory.md R61, 30_encoding.md R88): its part about
the report holds after every report, and each operation keeps the rest. -/

namespace Sys2Proof.Machine

/-! ### The two parts of the invariant -/

/-- The bits of one word are among those of another. -/
theorem and_not_eq_zero_iff {n : Nat} {v h : BitVec n} :
    v &&& ~~~h = 0 ↔ ∀ k, v.getLsbD k = true → h.getLsbD k = true := by
  simp only [BitVec.ofNat_eq_ofNat, BitVec.zero_iff_eq_false, BitVec.getLsbD_and, BitVec.getLsbD_not, Bool.and_eq_false_imp]
  refine forall_congr' fun k => ⟨fun hk hv => ?_, fun hk hv => ?_⟩
  · simpa [BitVec.lt_of_getLsbD hv] using hk hv
  · simp [hk hv]

/-- What the control invariant says of the report (R23, R26, R346). -/
structure ReportInv (s : State) : Prop where
  oneReport : ¬ (s.done = true ∧ s.err = true)
  errorReport : (s.err = true ↔ s.errcode ≠ 0) ∧ s.errcode.toNat ≤ 8 ∧ (s.err = false → s.errinfo = 0)
  haltReport : s.halt = true → s.err = true

/-- What it says of memory (R61). -/
def MemoryInv (m : Memory) : Prop :=
  m.wf ∧ ∀ c ∈ m, (textBase ≤ c.1 ∧ c.1 < textBase + 8192) ∨ (blkBase ≤ c.1 ∧ c.1 < blkBase + 256)

/-- What it says of the rest: memory, the bits of VALID and Log 6's beside them, and the results that are bounded. -/
structure ResultInv (s : State) : Prop where
  memory : MemoryInv s.mem
  gfReady : isValid GFRDY s = true
  chain : ∀ k, 1 ≤ k → k ≤ 8 → isValid (k + 1) s = true → isValid k s = true
  heldValid : ∀ k, isValid k s = true → s.held.getLsbD k = true
  modeLegal : s.mode = 0 ∨ s.mode = 1 ∨ s.mode = 2 ∨ s.mode = 4
  minverLegal : s.minver.toNat ≤ 40
  genLegal : isValid GENV s = true → ∃ n, n ≤ 255 ∧ s.gen = genpoly n
  synLegal : isValid SYNV s = true → s.syn.length ≤ 255

theorem controlInv_iff (s : State) : ControlInv s ↔ ReportInv s ∧ ResultInv s :=
  ⟨fun h => ⟨⟨h.oneReport, h.errorReport, h.haltReport⟩,
      ⟨⟨h.memWf, h.memRange⟩, h.gfReady, h.chain, and_not_eq_zero_iff.mp h.heldValid, h.modeLegal,
        h.minverLegal, h.genLegal, h.synLegal⟩⟩,
    fun ⟨r, h⟩ => ⟨h.memory.1, h.memory.2, h.gfReady, h.chain, and_not_eq_zero_iff.mpr h.heldValid, r.oneReport, r.errorReport, r.haltReport,
      h.modeLegal, h.minverLegal, h.genLegal, h.synLegal⟩⟩

/-! ### The report -/

theorem errorCode_range (e : Error) : errorCode e ≠ 0 ∧ (errorCode e).toNat ≤ 8 := by
  cases e <;> decide

theorem reportInv_raise (e : Error) (w : Word) (s : State) : ReportInv (raise e w s) where
  oneReport h := Bool.noConfusion h.1
  errorReport := ⟨⟨fun _ => (errorCode_range e).1, fun _ => rfl⟩, (errorCode_range e).2, fun h => Bool.noConfusion h⟩
  haltReport _ := rfl

theorem reportInv_complete {s : State} (h : s.halt = false) : ReportInv (complete s) where
  oneReport h := Bool.noConfusion h.2
  errorReport := ⟨⟨fun h => Bool.noConfusion h, fun h => (h rfl).elim⟩, Nat.zero_le _, fun _ => rfl⟩
  haltReport hs := Bool.noConfusion (h.symm.trans hs)

theorem reportInv_exec {i : Instr} {s t : State} (h : exec i s = .next t) : ReportInv t := by
  rcases exec_report_cases h with ⟨u, rfl, hu, -⟩ | ⟨e, u, rfl, -⟩
  · exact reportInv_complete hu
  · exact reportInv_raise _ _ _

theorem reportInv_rejectWord (w : Word) (s : State) : ReportInv (rejectWord w s) := by
  unfold rejectWord
  split <;> exact reportInv_raise _ _ _

/-- The report of a state. -/
def reportOf (s : State) : Bool × Bool × Bool × BitVec 4 × Word := (s.done, s.err, s.halt, s.errcode, s.errinfo)

theorem ReportInv.congr {s t : State} (hs : ReportInv s) (h : reportOf t = reportOf s) : ReportInv t := by
  simp only [reportOf, Prod.mk.injEq] at h
  obtain ⟨hdone, herr, hhalt, hcode, hinfo⟩ := h
  constructor <;> simp only [hdone, herr, hhalt, hcode, hinfo]
  · exact hs.oneReport
  · exact hs.errorReport
  · exact hs.haltReport

theorem reportOf_hostRead (a : Addr) (s : State) : reportOf (hostRead a s) = reportOf s := by
  obtain ⟨w, n, h⟩ := hostRead_cases a s
  rw [h, reportOf, reportOf]

theorem reportOf_hostWrite (a : Addr) (w : Word) (s : State) : reportOf (hostWrite a w s) = reportOf s := by
  rcases hostWrite_cases a w s with h | h | h | h | ⟨i, -, h⟩ | ⟨i, -, h⟩ <;> rw [h] <;> exact rfl

theorem reportInv_hardReset (s : State) : ReportInv (hardReset s) where
  oneReport h := Bool.noConfusion h.1
  errorReport := ⟨⟨fun h => Bool.noConfusion h, fun h => (h rfl).elim⟩, Nat.zero_le _, fun _ => rfl⟩
  haltReport h := Bool.noConfusion h

theorem ReportInv.step {s t : State} (hs : ReportInv s) (h : step s = .next t) : ReportInv t := by
  rcases step_cases h with ⟨-, rfl⟩ | ⟨w, rest, i, -, -, he⟩ | ⟨w, rest, e, -, -, rfl⟩ | ⟨a, rest, -, rfl⟩ |
    ⟨a, w, rest, -, -, rfl⟩ | ⟨rest, -, rfl⟩
  · exact hs
  · exact reportInv_exec he
  · exact reportInv_rejectWord w _
  · exact hs.congr (reportOf_hostRead a _)
  · exact hs.congr (reportOf_hostWrite a w _)
  · exact reportInv_hardReset _

/-! ### Memory (R61) -/

theorem memoryInv_nil : MemoryInv [] := ⟨List.Pairwise.nil, fun _ h => absurd h List.not_mem_nil⟩

/-- Writing bytes within TEXT or within BLK keeps memory canonical and within the two. -/
theorem MemoryInv.insertCells {m : Memory} (h : MemoryInv m) {a : Nat} {bs : List Byte}
    (ha : (textBase ≤ a ∧ a + bs.length ≤ textBase + 8192) ∨ (blkBase ≤ a ∧ a + bs.length ≤ blkBase + 256)) :
    MemoryInv (insertCells a bs m) := by
  obtain ⟨hwf, hrange⟩ := h
  refine ⟨insertCells_wf bs a hwf, fun c hc => ?_⟩
  rcases mem_insertCells bs a hc with hnew | hold
  · omega
  · exact hrange c hold

/-! ### The other parts, operation by operation -/

/-- The fields the rest of the invariant is about. -/
def resultsOf (s : State) : Memory × BitVec 12 × BitVec 12 × BitVec 4 × BitVec 6 × List Byte × List Byte :=
  (s.mem, s.valid, s.held, s.mode, s.minver, s.gen, s.syn)

theorem ResultInv.congr {s t : State} (hs : ResultInv s) (h : resultsOf t = resultsOf s) : ResultInv t := by
  simp only [resultsOf, Prod.mk.injEq] at h
  obtain ⟨hmem, hvalid, hheld, hmode, hminver, hgen, hsyn⟩ := h
  have hbit : ∀ k, isValid k t = isValid k s := fun k => by rw [isValid, hvalid, isValid]
  constructor <;> simp only [hmem, hbit, hheld, hmode, hminver, hgen, hsyn]
  · exact hs.memory
  · exact hs.gfReady
  · exact hs.chain
  · exact hs.heldValid
  · exact hs.modeLegal
  · exact hs.minverLegal
  · exact hs.genLegal
  · exact hs.synLegal

theorem ResultInv.writeBytes {s : State} (hs : ResultInv s) {a : Nat} {bs : List Byte}
    (ha : (textBase ≤ a ∧ a + bs.length ≤ textBase + 8192) ∨ (blkBase ≤ a ∧ a + bs.length ≤ blkBase + 256)) :
    ResultInv (writeBytes a bs s) :=
  { hs with memory := hs.memory.insertCells ha }

theorem held_clearStages {lo : Nat} (hlo : lo < 10) (k : Nat) (s : State) :
    (clearStages lo s).held.getLsbD k = (s.held.getLsbD k && !decide (lo ≤ k ∧ k ≤ 9)) :=
  isValid_clearStages hlo k { s with valid := s.held }

theorem ResultInv.clearStages {s : State} (hs : ResultInv s) {lo : Nat} (h1 : 1 ≤ lo) (h9 : lo ≤ 9) :
    ResultInv (clearStages lo s) := by
  have hbit : ∀ j, isValid j (Machine.clearStages lo s) = true ↔ isValid j s = true ∧ ¬ (lo ≤ j ∧ j ≤ 9) := fun j => by
    rw [isValid_clearStages (by omega), Bool.and_eq_true, Bool.not_eq_true', decide_eq_false_iff_not]
  refine { hs with
    gfReady := (hbit _).mpr ⟨hs.gfReady, ?_⟩, chain := fun k hk1 hk8 hk => (hbit _).mpr ?_, heldValid := fun k hk => ?_,
    genLegal := fun hk => hs.genLegal ((hbit _).mp hk).1, synLegal := fun hk => hs.synLegal ((hbit _).mp hk).1 }
  · simp only [GFRDY]
    omega
  · obtain ⟨hk, hlo⟩ := (hbit _).mp hk
    exact ⟨hs.chain k hk1 hk8 hk, by omega⟩
  · obtain ⟨hk, hlo⟩ := (hbit _).mp hk
    rw [held_clearStages (by omega), hs.heldValid k hk, decide_eq_false hlo]
    exact rfl

/-- Marking a group keeps the invariant where the stage before it is valid, and its own bound holds of what it wrote. -/
theorem ResultInv.markValid {s : State} (hs : ResultInv s) {k : Nat} (hk : k < 12)
    (hprev : 2 ≤ k → k ≤ 9 → isValid (k - 1) s = true) (hgen : k = GENV → ∃ n, n ≤ 255 ∧ s.gen = genpoly n)
    (hsyn : k = SYNV → s.syn.length ≤ 255) : ResultInv (markValid k s) := by
  have hbit : ∀ j, isValid j (Machine.markValid k s) = true ↔ isValid j s = true ∨ j = k := fun j => by
    rw [isValid_markValid hk, Bool.or_eq_true, decide_eq_true_eq]
  refine { hs with
    gfReady := (hbit _).mpr (.inl hs.gfReady), chain := fun j hj1 hj8 hj => (hbit _).mpr (.inl ?_),
    heldValid := fun j hj => ?_, genLegal := fun hj => ((hbit _).mp hj).elim hs.genLegal (hgen ·.symm),
    synLegal := fun hj => ((hbit _).mp hj).elim hs.synLegal (hsyn ·.symm) }
  · rcases (hbit _).mp hj with hj | rfl
    · exact hs.chain j hj1 hj8 hj
    · exact hprev (by omega) (by omega)
  · rw [markValid_held, BitVec.getLsbD_or, validBit_getLsbD hk, Bool.or_eq_true, decide_eq_true_eq]
    exact ((hbit _).mp hj).imp_left (hs.heldValid j)

theorem ResultInv.markHeld {s : State} (hs : ResultInv s) (k : Nat) : ResultInv (markHeld k s) :=
  { hs with heldValid := fun j hj => by rw [markHeld_held, BitVec.getLsbD_or, hs.heldValid j hj, Bool.true_or] }

/-- `genpoly n` goes to GEN with its bit (R139, R152). -/
theorem ResultInv.setGen {s : State} (hs : ResultInv s) (n : BitVec 8) :
    ResultInv (Machine.markValid GENV { s with gen := genpoly n.toNat }) := by
  have hgen : ∃ m, m ≤ 255 ∧ genpoly n.toNat = genpoly m := ⟨n.toNat, by omega, rfl⟩
  have hs' : ResultInv { s with gen := genpoly n.toNat } := { hs with genLegal := fun _ => hgen }
  exact hs'.markValid (by decide) (fun _ h => absurd h (by decide)) (fun _ => hgen) nofun

theorem syndromes_length_le (r : List Byte) (n : BitVec 8) : (syndromes r n.toNat).length ≤ 255 := by
  rw [syndromes, List.length_map, List.length_range]
  omega

/-- The syndromes go to SYN with its bit (R172). -/
theorem ResultInv.recordSyndromes {s : State} (hs : ResultInv s) (r : List Byte) (n : BitVec 8) :
    ResultInv (recordSyndromes r n.toNat s) := by
  have hsyn := syndromes_length_le r n
  have hs' : ResultInv { s with
      syn := syndromes r n.toNat, res0 := BitVec.ofNat 32 (nonzeroCount (syndromes r n.toNat)) } :=
    { hs with synLegal := fun _ => hsyn }
  exact hs'.markValid (by decide) (fun _ h => absurd h (by decide)) nofun fun _ => hsyn

/-! ### The stand-alone commands -/

theorem ResultInv.ruleRsenc {s : State} (hs : ResultInv s) {k n : BitVec 8} (h : rsencInRange k n = true) :
    (ruleRsenc k n s).All ResultInv := by
  have hkn : k.toNat + n.toNat ≤ 255 := of_decide_eq_true h
  have hblk := hs.writeBytes (a := blkBase + k.toNat) (bs := rsecc (blkBytes s k.toNat) n.toNat)
    (.inr (by rw [rsecc_length]; omega))
  exact (hblk.setGen n).congr rfl

theorem ResultInv.ruleRscor {s : State} (hs : ResultInv s) (len n : BitVec 8) : (ruleRscor len n s).All ResultInv := by
  have hrec := hs.recordSyndromes (blkBytes s len.toNat) n
  unfold Machine.ruleRscor
  dsimp only
  split
  · next c e hc =>
    have hlen : c.length = len.toNat := by simpa [blkBytes] using rscorrect_length hc
    exact (hrec.writeBytes (a := blkBase) (.inr (by omega))).congr rfl
  · exact hrec.congr rfl

theorem ResultInv.ruleFmtdec {s : State} (hs : ResultInv s) (raw : BitVec 15) : (ruleFmtdec raw s).All ResultInv := by
  unfold Machine.ruleFmtdec
  split <;> exact hs.congr rfl

theorem ResultInv.ruleVerdec {s : State} (hs : ResultInv s) (raw : BitVec 18) : (ruleVerdec raw s).All ResultInv := by
  unfold Machine.ruleVerdec
  split <;> exact hs.congr rfl

theorem ResultInv.ruleOf_standAlone {i : Instr} {s : State} (hs : ResultInv s) (hi : standAlone i = true)
    (ho : operandsOk i s = true) : (ruleOf i s).All ResultInv := by
  cases i with
  | gfmul a b => exact hs.congr rfl
  | gfgen n => exact (hs.setGen n).congr rfl
  | rsenc k n => exact hs.ruleRsenc ho
  | rssyn len n => exact hs.recordSyndromes _ n
  | rscor len n => exact hs.ruleRscor len n
  | fmtenc level mask => exact hs.congr rfl
  | fmtdec raw => exact hs.ruleFmtdec raw
  | verenc version => exact hs.congr rfl
  | verdec raw => exact hs.ruleVerdec raw
  | _ => exact absurd hi Bool.false_ne_true

/-! ### The stage commands and ENCODE -/

/-- ANALYZE stores one of three modes, never kanji (R104, R107). -/
theorem modeIndicator_downgrade (m : Mode) :
    modeIndicator (downgrade m) = 1 ∨ modeIndicator (downgrade m) = 2 ∨ modeIndicator (downgrade m) = 4 := by
  cases m <;> decide

theorem analyzedMinimum_getD_le (s : State) : (analyzedMinimum s).getD 40 ≤ 40 := by
  cases h : analyzedMinimum s with
  | none => exact Nat.le_refl _
  | some v =>
    obtain ⟨-, h40, -⟩ := minimumVersion_eq_some_iff.mp h
    exact h40

theorem ResultInv.recordAnalysis {s : State} (hs : ResultInv s) : ResultInv (recordAnalysis s) := by
  have hclear := hs.clearStages (lo := ANALYZED) (by decide) (by decide)
  have hwritten : ResultInv { Machine.clearStages ANALYZED s with
      mode := modeIndicator (analyzedMode s), notice := kanjiText (textBytes s)
      minver := BitVec.ofNat 6 ((analyzedMinimum s).getD 40), anvalid := (analyzedMinimum s).isSome } :=
    { hclear with
      modeLegal := .inr (modeIndicator_downgrade _)
      minverLegal := (Nat.mod_le _ _).trans (analyzedMinimum_getD_le s) }
  exact hwritten.markHeld ANALYZED

/-- Of the fields of the invariant a stage after the first writes its bits only. -/
theorem resultsOf_stageDone {k : Nat} (h2 : 2 ≤ k) (h8 : k ≤ 8) (s : State) :
    resultsOf (stageDone k s) = resultsOf (markValid k (clearStages k s)) := by
  interval_cases k <;> rfl

theorem resultsOf_stageRaised {k : Nat} (h2 : 2 ≤ k) (s : State) :
    resultsOf (stageRaised k s) = resultsOf (clearStages k s) := by
  unfold stageRaised
  split
  · exact absurd h2 (by decide)
  · rfl

/-- Marking a stage valid keeps the invariant where the stage before it is valid (R88). -/
theorem ResultInv.markStage {k : Nat} {s : State} (hs : ResultInv s) (h9 : k ≤ 9)
    (hprev : 2 ≤ k → isValid (k - 1) s = true) : ResultInv (Machine.markValid k s) := by
  refine hs.markValid (by omega) (fun h2 _ => hprev h2) ?_ ?_
  · rintro rfl
    exact absurd h9 (by decide)
  · rintro rfl
    exact absurd h9 (by decide)

theorem ResultInv.stageDone {k : Nat} {s : State} (hs : ResultInv s) (h1 : 1 ≤ k) (h9 : k ≤ 9)
    (hprev : 2 ≤ k → isValid (k - 1) s = true) : ResultInv (stageDone k s) := by
  obtain rfl | rfl | ⟨h2, h8⟩ : k = 1 ∨ k = 9 ∨ 2 ≤ k ∧ k ≤ 8 := by omega
  · exact hs.recordAnalysis.markStage (by decide) fun h => absurd h (by decide)
  · exact (hs.markStage h9 hprev).congr rfl
  · refine ((hs.clearStages h1 h9).markStage h9 fun _ => ?_).congr (resultsOf_stageDone h2 h8 s)
    have hbelow : ¬ (k ≤ k - 1 ∧ k - 1 ≤ 9) := by omega
    rw [isValid_clearStages (by omega), hprev h2, decide_eq_false hbelow]
    exact rfl

theorem ResultInv.stageRaised {k : Nat} {s : State} (hs : ResultInv s) (h1 : 1 ≤ k) (h9 : k ≤ 9) :
    ResultInv (stageRaised k s) := by
  obtain rfl | h2 : k = 1 ∨ 2 ≤ k := by omega
  · exact hs.recordAnalysis
  · exact (hs.clearStages h1 h9).congr (resultsOf_stageRaised h2 s)

theorem ResultInv.stageRule {k : Nat} {s : State} (hs : ResultInv s) (h1 : 1 ≤ k) (h9 : k ≤ 9)
    (hprev : 2 ≤ k → isValid (k - 1) s = true) : (stageRule k s).All ResultInv := by
  by_cases hok : stageOk k s
  · rw [stageRule_done hok]
    exact hs.stageDone h1 h9 hprev
  · rw [stageRule_eq_raised hok]
    exact hs.stageRaised h1 h9

/-- In a sequence of stage rules every stage finds the one before it valid. -/
theorem thenStages_resultInv {n k : Nat} (h2 : 2 ≤ k) (hn : k + n = 10) {r : RuleResult} (hr : r.All ResultInv)
    (hready : ∀ t, r = .done t → t.halt = false ∧ isValid (k - 1) t = true) :
    (thenStages r (List.range' k n)).All ResultInv := by
  induction n generalizing k r with
  | zero => exact hr
  | succ n ih =>
    rw [List.range'_succ, thenStages_cons]
    cases r with
    | raised e t =>
      rw [andThen_raised, thenStages_raised]
      exact hr
    | done t =>
      obtain ⟨hhalt, hprev⟩ := hready t rfl
      rw [andThen_done]
      exact ih (by omega) (by omega) (ResultInv.stageRule hr (by omega) (by omega) fun _ => hprev) fun u hu =>
        stageRule_next_ready (by omega) (by omega) hhalt hu

theorem ResultInv.ruleEncode {s : State} (hs : ResultInv s) (hhalt : s.halt = false) : (ruleEncode s).All ResultInv := by
  rw [ruleEncode_eq_stageSequence, stageSequence_eq_thenStages]
  exact thenStages_resultInv (by decide) rfl (hs.stageRule (k := 1) (by decide) (by decide) fun h => absurd h (by decide))
    fun t ht => stageRule_next_ready (k := 1) (by decide) (by decide) hhalt ht

/-! ### Every command -/

/-- A stage command requires the bit of the stage before its own (R88). -/
theorem requiredBit_stageCommand {k : Nat} (h1 : 1 ≤ k) (h9 : k ≤ 9) : requiredBit (stageCommand k) = some (k - 1) := by
  interval_cases k <;> rfl

theorem readyFor_stageCommand {k : Nat} (h1 : 1 ≤ k) (h9 : k ≤ 9) (s : State) :
    readyFor (stageCommand k) s = isValid (k - 1) s := by
  rw [readyFor, requiredBit_stageCommand h1 h9]

theorem ResultInv.ruleOf {i : Instr} {s : State} (hs : ResultInv s) (hi : i ≠ .sreset) (hhalt : s.halt = false)
    (ho : operandsOk i s = true) (hr : readyFor i s = true) : (ruleOf i s).All ResultInv := by
  rcases instr_kind i with ⟨k, h1, h9, rfl⟩ | hi | rfl | rfl | rfl
  · rw [ruleOf_stageCommand h1 h9]
    exact hs.stageRule h1 h9 fun _ => (readyFor_stageCommand h1 h9 s).symm.trans hr
  · exact hs.ruleOf_standAlone hi ho
  · exact hs
  · exact (hi rfl).elim
  · exact hs.ruleEncode hhalt

theorem ResultInv.raise {s : State} (hs : ResultInv s) (e : Error) (w : Word) : ResultInv (raise e w s) := hs.congr rfl

theorem ResultInv.complete {s : State} (hs : ResultInv s) : ResultInv (complete s) := hs.congr rfl

/-- With every register at its reset value (R50) only GFRDY is set, and no result is out of bounds. -/
theorem resultInv_of_reset {s : State} (hmem : MemoryInv s.mem) (h : resultsOf s = (s.mem, 0x001, 0xFFF, 0, 0, [], [])) :
    ResultInv s := by
  simp only [resultsOf, Prod.mk.injEq] at h
  obtain ⟨-, hvalid, hheld, hmode, hminver, -, -⟩ := h
  have hbit : ∀ k, isValid k s = true ↔ k = GFRDY := fun k => by
    rw [isValid, hvalid, ← decide_eq_true_iff (p := k = GFRDY), ← validBit_getLsbD (by decide)]
    exact Iff.rfl
  refine ⟨hmem, (hbit _).mpr rfl, fun k _ _ hk => absurd ((hbit _).mp hk) k.succ_ne_zero, fun k hk => ?_, .inl hmode, ?_,
    fun hk => absurd ((hbit _).mp hk) (by decide), fun hk => absurd ((hbit _).mp hk) (by decide)⟩
  · rw [(hbit k).mp hk, hheld]
    exact rfl
  · rw [hminver]
    exact Nat.zero_le _

theorem ResultInv.exec {i : Instr} {s t : State} (hs : ResultInv s) (h : exec i s = .next t) : ResultInv t := by
  by_cases hi : i = .sreset
  · subst hi
    injection h with h
    exact h ▸ (resultInv_of_reset hs.memory rfl)
  · rw [exec_eq_command hi] at h
    injection h with h
    rcases command_cases i (operandsOk i s) (readyFor i s) (Machine.ruleOf i) s with ⟨-, hc⟩ | ⟨-, -, hc⟩ |
      ⟨-, -, -, hc⟩ | ⟨hhalt, ho, hr, ⟨u, hu, hc⟩ | ⟨e, u, hu, hc⟩⟩ <;> rw [← h, hc]
    · exact hs.raise _ _
    · exact hs.raise _ _
    · exact hs.raise _ _
    · have hrule := hs.ruleOf hi hhalt ho hr
      rw [hu] at hrule
      exact ResultInv.complete hrule
    · have hrule := hs.ruleOf hi hhalt ho hr
      rw [hu] at hrule
      exact ResultInv.raise hrule _ _

/-! ### Every step -/

theorem ResultInv.writeByte {s : State} (hs : ResultInv s) {a : Nat} {b : Byte}
    (ha : (textBase ≤ a ∧ a < textBase + 8192) ∨ (blkBase ≤ a ∧ a < blkBase + 256)) : ResultInv (writeByte a b s) :=
  hs.writeBytes (bs := [b]) (by rw [List.length_singleton]; omega)

theorem ResultInv.endRun {s : State} (hs : ResultInv s) : ResultInv (endRun s) :=
  hs.clearStages (lo := ANALYZED) (by decide) (by decide)

theorem ResultInv.hostWrite {s : State} (hs : ResultInv s) (a : Addr) (w : Word) : ResultInv (hostWrite a w s) := by
  rcases hostWrite_cases a w s with h | h | h | h | ⟨i, hi, h⟩ | ⟨i, hi, h⟩ <;> rw [h]
  · exact hs
  · exact (hs.congr (t := { s with version := w.setWidth 6 }) rfl).endRun
  · exact (hs.congr (t := { s with level := w.setWidth 2 }) rfl).endRun
  · exact (hs.congr (t := { s with len := w.setWidth 13 }) rfl).endRun
  · exact (hs.writeByte (.inl (by omega))).endRun
  · exact hs.writeByte (.inr (by omega))

theorem ResultInv.step {s t : State} (hs : ResultInv s) (h : step s = .next t) : ResultInv t := by
  have htaken : ∀ rest, ResultInv { s with pending := rest } := fun rest => hs.congr rfl
  rcases step_cases h with ⟨-, rfl⟩ | ⟨w, rest, i, -, -, he⟩ | ⟨w, rest, e, -, -, rfl⟩ | ⟨a, rest, -, rfl⟩ |
    ⟨a, w, rest, -, -, rfl⟩ | ⟨rest, -, rfl⟩
  · exact hs
  · exact (htaken rest).exec he
  · unfold rejectWord
    split <;> exact (htaken rest).raise _ _
  · obtain ⟨v, n, hread⟩ := hostRead_cases a { s with pending := rest }
    rw [hread]
    exact hs.congr rfl
  · exact (htaken rest).hostWrite a w
  · exact resultInv_of_reset memoryInv_nil rfl

/-- Settles O17: the report by its last writer, the rest operation by operation. -/
theorem stepKeepsControlInv : Obligations.StepKeepsControlInv := by
  intro s t hs h
  obtain ⟨hreport, hresults⟩ := (controlInv_iff s).mp hs
  exact (controlInv_iff t).mpr ⟨hreport.step h, hresults.step h⟩

/-- Settles O16: after reset memory lists nothing and only GFRDY is set, so no stage is to be honest. -/
theorem resetSatisfiesInvariants : Obligations.ResetSatisfiesInvariants :=
  ⟨(controlInv_iff _).mpr ⟨⟨nofun, by decide, nofun⟩, resultInv_of_reset memoryInv_nil rfl⟩, coherent_of_reset_valid rfl⟩

end Sys2Proof.Machine
end

section
/-! What a stage command leaves of the state (10_state.md R24, R25, 30_encoding.md R88): its outputs and the report aside
everything, the bits of VALID below its own, and none of the later ones. -/

namespace Sys2Proof.Machine

theorem stageCommand_ne_sreset {k : Nat} (h1 : 1 ≤ k) (h9 : k ≤ 9) : stageCommand k ≠ .sreset := by
  interval_cases k <;> exact Instr.noConfusion

/-! ### The frame of a stage command -/

/-- `t` with the report and HALT of `s`. -/
def withStatusOf (s t : State) : State :=
  { t with done := s.done, err := s.err, errcode := s.errcode, errinfo := s.errinfo, halt := s.halt }

/-- From `s` to `t` at most the outputs of stage `k`, VALID and the model's bits of Log 6, the report and HALT change. -/
def StageFrame (k : Nat) (s t : State) : Prop :=
  withStatusOf s (withOutputsOf k s { t with valid := s.valid, held := s.held }) = s

theorem WritesOnlyOutputs.stageFrame {k : Nat} {s t : State} (h : WritesOnlyOutputs k s t) : StageFrame k s t :=
  congrArg (withStatusOf s) h

/-- No report is part of a stage's outputs. -/
theorem stageFrame_withStatusOf {k : Nat} {s t : State} (h1 : 1 ≤ k) (h9 : k ≤ 9) (u : State) (h : StageFrame k s t) :
    StageFrame k s (withStatusOf u t) :=
  .trans (by interval_cases k <;> rfl) h

theorem exec_stageFrame {k : Nat} {s t : State} (h1 : 1 ≤ k) (h9 : k ≤ 9) (h : exec (stageCommand k) s = .next t) :
    StageFrame k s t := by
  rw [exec_eq_command (stageCommand_ne_sreset h1 h9), ruleOf_stageCommand h1 h9] at h
  injection h with h
  have hrule := stageRule_writesOnlyOutputs h1 h9 s
  refine h ▸ command_keeps (P := StageFrame k s) (fun e w u hu => stageFrame_withStatusOf h1 h9 (raise e w u) hu)
    (fun u hu => stageFrame_withStatusOf h1 h9 (complete u) hu) ?_ (fun u _ _ hu => ?_) fun e u _ _ hu => ?_
  · exact congrArg (withStatusOf s) (withOutputsOf_self k s)
  · rw [hu] at hrule
    exact hrule.stageFrame
  · rw [hu] at hrule
    exact hrule.stageFrame

/-- The commands that touch HALT are SRESET and those that can raise StructuralInconsistency (R301, R344). -/
theorem exec_halt_eq {i : Instr} {s t : State} (h : exec i s = .next t)
    (hi : i ≠ .sreset ∧ i ≠ .rssplit ∧ i ≠ .matplace ∧ i ≠ .encode) : t.halt = s.halt := by
  obtain ⟨hsreset, hrssplit, hmatplace, hencode⟩ := hi
  cases hs : s.halt <;> cases ht : t.halt
  · rfl
  · obtain ⟨-, -, rfl | rfl | rfl⟩ := structuralInconsistency_of_halt h hs ht
    · exact (hrssplit rfl).elim
    · exact (hmatplace rfl).elim
    · exact (hencode rfl).elim
  · exact (hsreset (eq_sreset_of_halt h hs ht)).elim
  · rfl

/-- The other stages leave HALT as it is too. -/
theorem exec_withOutputsOf {k : Nat} {s t : State} (hk : k ∈ [1, 2, 4, 5, 7, 8, 9])
    (h : exec (stageCommand k) s = .next t) : withOutputsOf k s (t.withReportOf s) = s := by
  simp only [List.mem_cons, List.not_mem_nil, or_false] at hk
  have hframe := exec_stageFrame (by omega) (by omega) h
  have hhalt : t.halt = s.halt := exec_halt_eq h (by rcases hk with rfl | rfl | rfl | rfl | rfl | rfl | rfl <;> decide)
  rw [StageFrame, withStatusOf, ← hhalt] at hframe
  exact .trans (by rcases hk with rfl | rfl | rfl | rfl | rfl | rfl | rfl <;> rfl) hframe

/-- Settles O14: a stage's rule writes its outputs, the checks write the report, and only two stages can set HALT. -/
theorem stagesWriteOnlyTheirOutputs : Obligations.StagesWriteOnlyTheirOutputs := fun _ _ =>
  ⟨exec_withOutputsOf (k := 1) (by decide), exec_withOutputsOf (k := 2) (by decide),
    exec_stageFrame (k := 3) (by decide) (by decide), exec_withOutputsOf (k := 4) (by decide),
    exec_withOutputsOf (k := 5) (by decide), exec_stageFrame (k := 6) (by decide) (by decide),
    exec_withOutputsOf (k := 7) (by decide), exec_withOutputsOf (k := 8) (by decide), exec_withOutputsOf (k := 9) (by decide)⟩

/-! ### The bits of VALID (R25) -/

/-- Above its own bit a stage that completes leaves only the bits that are no stage's. -/
theorem isValid_stageDone_of_lt {j k : Nat} (h1 : 1 ≤ k) (h9 : k ≤ 9) (hj : k < j) (s : State) :
    isValid j (stageDone k s) = (isValid j s && decide (9 < j)) := by
  obtain rfl | h8 : k = 9 ∨ k ≤ 8 := by omega
  · have hv : isValid j (stageDone 9 s) = (isValid j s || decide (j = 9)) := isValid_markValid (by decide) j s
    rw [hv, decide_eq_false (by omega), decide_eq_true hj, Bool.or_false, Bool.and_true]
  · have hv : isValid j (stageDone k s) = isValid j (markValid k (clearStages k s)) := by interval_cases k <;> rfl
    have hlater : (!decide (k ≤ j ∧ j ≤ 9)) = decide (9 < j) := by
      rw [← decide_not]
      exact decide_eq_decide.mpr (by omega)
    rw [hv, isValid_markValid (by omega), isValid_clearStages (by omega), hlater, decide_eq_false (by omega : ¬ j = k),
      Bool.or_false]

theorem isValid_stageRaised_eq {k : Nat} (h1 : 1 ≤ k) (h9 : k ≤ 9) (j : Nat) (s : State) :
    isValid j (stageRaised k s) = (isValid j s && !decide (k ≤ j ∧ j ≤ 9)) := by
  have hv : isValid j (stageRaised k s) = isValid j (clearStages k s) := by interval_cases k <;> rfl
  rw [hv, isValid_clearStages (by omega)]

/-- Settles O15: past its checks a stage ends as its rule does, and both ends say what becomes of each bit. -/
theorem stageValidBits : Obligations.StageValidBits := by
  intro k s t h1 h9 hhalt hrange hready h j
  rw [exec_runs hhalt ((operandsOk_iff _ _).mpr hrange) ((readyFor_iff _ _).mpr hready), ruleOf_stageCommand h1 h9] at h
  injection h with h
  subst h
  by_cases hok : stageOk k s
  · rw [stageRule_done hok, conclude]
    have hdone : (complete (stageDone k s)).valid.getLsbD j = isValid j (stageDone k s) := rfl
    rw [hdone, complete_done]
    by_cases hj : j ≤ k
    · rw [isValid_stageDone_of_le h1 h9 hj, isValid]
      grind
    · rw [isValid_stageDone_of_lt h1 h9 (by omega), isValid]
      grind
  · rw [stageRule_eq_raised hok, conclude]
    have hraised : (raise (stageError k) (encode (stageCommand k)) (stageRaised k s)).valid.getLsbD j =
      isValid j (stageRaised k s) := rfl
    rw [hraised, isValid_stageRaised_eq h1 h9, isValid, raise_done]
    grind

end Sys2Proof.Machine
end

section
/-! Host reads (20_memory.md R60 to R63, 10_state.md R22 to R48, 49_config_tables.md R321): what each space reads at each of its
indices, within its elements and beyond them. -/

namespace Sys2Proof.Machine

/-! ### Addresses (R61) -/

theorem addrSpace_eq (a : Addr) : addrSpace a = a.toNat / 0x100000 := by
  have ha := a.isLt
  simp only [addrSpace, BitVec.extractLsb'_toNat, Nat.shiftRight_eq_div_pow]
  omega

theorem addrIndex_eq (a : Addr) : addrIndex a = a.toNat % 0x100000 := by
  simp only [addrIndex, BitVec.extractLsb'_toNat, Nat.shiftRight_eq_div_pow]
  omega

/-- The address names element `i` of space `n`. -/
structure Names (a : Addr) (n i : Nat) : Prop where
  space : addrSpace a = n
  index : addrIndex a = i

theorem names_ofNat {m n i : Nat} (h : m = 0x100000 * n + i) (hn : n < 16) (hi : i < 0x100000) :
    Names (BitVec.ofNat 24 m) n i where
  space := by
    rw [addrSpace_eq, BitVec.toNat_ofNat]
    omega
  index := by
    rw [addrIndex_eq, BitVec.toNat_ofNat]
    omega

/-! ### What each space reads -/

section
variable {s : State} {a : Addr} {i : Nat}

theorem elementAt_registers (h : Names a 0 i) : elementAt s a = readRegister s i := by
  simp only [elementAt, h.space, h.index]

theorem elementAt_text (h : Names a 1 i) :
    elementAt s a = .known (if i < 8192 then (readByte s (textBase + i)).setWidth 32 else 0) := by
  simp only [elementAt, h.space, h.index]

theorem elementAt_bits (h : Names a 2 i) :
    elementAt s a = bufferElement s PACKED (bitsSize s.rom) 1 i
      (s.bits[i]?.map fun b => (BitVec.ofBool b).setWidth 32) := by
  simp only [elementAt, h.space, h.index]

theorem elementAt_dcw (h : Names a 3 i) :
    elementAt s a =
      bufferElement s PACKED (dcwSize s.rom) 8 i (s.dcw[i]?.map (·.setWidth 32)) := by
  simp only [elementAt, h.space, h.index]

theorem elementAt_dblk (h : Names a 4 i) :
    elementAt s a = bufferElement s SPLIT blockSpaceSize 8 i (blockElement s.dblk i) := by
  simp only [elementAt, h.space, h.index]

theorem elementAt_eblk (h : Names a 5 i) :
    elementAt s a = bufferElement s SPLIT blockSpaceSize 8 i (blockElement s.eblk i) := by
  simp only [elementAt, h.space, h.index]

theorem elementAt_icw (h : Names a 6 i) :
    elementAt s a = bufferElement s ILV (icwSize s.rom) 8 i (s.icw[i]?.map (·.setWidth 32)) := by
  simp only [elementAt, h.space, h.index]

theorem elementAt_mtype (h : Names a 7 i) :
    elementAt s a = bufferElement s MINIT matrixSpaceSize 3 i
      ((s.mtype.getD (i / 256) [])[i % 256]?.map typeCode) := by
  simp only [elementAt, h.space, h.index]

theorem elementAt_mfunc (h : Names a 8 i) :
    elementAt s a = readMatrix s MINIT s.mfunc matrixSpaceSize i := by
  simp only [elementAt, h.space, h.index]

theorem elementAt_mpre (h : Names a 9 i) :
    elementAt s a = readMatrix s PLACED s.mpre matrixSpaceSize i := by
  simp only [elementAt, h.space, h.index]

theorem elementAt_mcand (h : Names a 10 i) :
    elementAt s a = readMatrix s EVALD (s.mcand[i / 65536]?.getD []) (65536 * 7 + matrixSpaceSize)
      i := by
  simp only [elementAt, h.space, h.index]

theorem elementAt_mfinal (h : Names a 11 i) :
    elementAt s a = readMatrix s STAMPED s.mfinal matrixSpaceSize i := by
  simp only [elementAt, h.space, h.index]

theorem elementAt_blk (h : Names a 12 i) :
    elementAt s a = .known (if i < 256 then (readByte s (blkBase + i)).setWidth 32 else 0) := by
  simp only [elementAt, h.space, h.index]

theorem elementAt_gen (h : Names a 13 i) :
    elementAt s a = bufferElement s GENV 256 8 i (s.gen[i]?.map (·.setWidth 32)) := by
  simp only [elementAt, h.space, h.index]

theorem elementAt_syn (h : Names a 14 i) :
    elementAt s a = bufferElement s SYNV 255 8 i (s.syn[i]?.map (·.setWidth 32)) := by
  simp only [elementAt, h.space, h.index]

theorem elementAt_rom (h : Names a 15 i) : elementAt s a = .known (readRom s.rom i) := by
  simp only [elementAt, h.space, h.index]

end

/-! ### The registers (R22 to R36) -/

theorem registerOf_held {n : Nat} {s : State} {k : Nat} (h : s.held.getLsbD k = true) (v : BitVec n) :
    registerOf s k v = .known (v.setWidth 32) := if_pos h

theorem readRegister_of_ge {i : Nat} (h : 0x40 ≤ i) (s : State) : readRegister s i = readPenalty s i := by
  unfold readRegister
  split
  case h_25 => exact if_pos h
  all_goals exact absurd h (by decide)

/-- Register `j` of row `p` of PEN (R35). -/
theorem readPenalty_of_some {s : State} {p : Fin 8} {i j : Nat} {w : Word} (hi : i = 0x40 + 8 * p + j) (hj : j < 8)
    (hw : penaltyRegister s.pen[p] j = some w) : readPenalty s i = registerOf s EVALD w := by
  have hp : (i - 0x40) / 8 = p := by omega
  have hreg : (i - 0x40) % 8 = j := by omega
  have hrow : s.pen[(i - 0x40) / 8]? = some s.pen[p] := by
    rw [hp]
    exact Vector.getElem?_eq_getElem p.isLt
  simp only [readPenalty, hrow, hreg, hw]

theorem penaltyRegister_of_ge {j : Nat} (h : 6 ≤ j) (p : Penalty) : penaltyRegister p j = none := by
  unfold penaltyRegister
  split
  case h_7 => rfl
  all_goals exact absurd h (by decide)

/-- Rows beyond the eighth and numbers 6 and 7 of a row are unassigned (R36). -/
theorem readPenalty_unassigned {i : Nat} (h : 0x40 ≤ i) (hi : 0x80 ≤ i ∨ 6 ≤ i % 8) (s : State) :
    readPenalty s i = .known 0 := by
  unfold readPenalty
  split
  · rfl
  · next row hrow =>
    have hlt := (Vector.getElem?_eq_some_iff.mp hrow).1
    have hnone := penaltyRegister_of_ge (j := (i - 0x40) % 8) (by omega) row
    rw [hnone]

/-- An unassigned register number reads 0 (R36). -/
theorem readRegister_unassigned {i : Nat} (hi : assignedRegister i = false) (s : State) : readRegister s i = .known 0 := by
  by_cases h40 : 0x40 ≤ i
  · rw [readRegister_of_ge h40]
    refine readPenalty_unassigned h40 ?_ s
    by_contra hrow
    have hassigned : assignedRegister i = true := by
      simp only [assignedRegister, Bool.or_eq_true, Bool.and_eq_true, decide_eq_true_eq]
      omega
    exact Bool.noConfusion (hi.symm.trans hassigned)
  · unfold readRegister
    split
    case h_25 => exact if_neg h40
    all_goals exact Bool.noConfusion hi

section
variable {s : State}

theorem statusWord_bits (s : State) : (statusWord s).getLsbD 0 = false ∧ (statusWord s).getLsbD 1 = s.done ∧
    (statusWord s).getLsbD 2 = s.err ∧ (statusWord s).getLsbD 3 = s.halt ∧ (statusWord s).getLsbD 4 = s.notice := by
  simp only [statusWord, BitVec.getLsbD_append]
  simp

/-- STATUS reads the five flags (R23). -/
theorem elementAt_status (s : State) : ∃ w, elementAt s 0x01 = .known w ∧ w.getLsbD 0 = false ∧ w.getLsbD 1 = s.done ∧
    w.getLsbD 2 = s.err ∧ w.getLsbD 3 = s.halt ∧ w.getLsbD 4 = s.notice ∧ w >>> 5 = 0 := by
  obtain ⟨h0, h1, h2, h3, h4⟩ := statusWord_bits s
  refine ⟨(statusWord s).setWidth 32, rfl, ?_, ?_, ?_, ?_, ?_, ?_⟩
  · simpa using h0
  · simpa using h1
  · simpa using h2
  · simpa using h3
  · simpa using h4
  · have hlt := (statusWord s).isLt
    refine BitVec.eq_of_toNat_eq ?_
    simp [Nat.shiftRight_eq_div_pow]
    omega

/-- `PRESENT` is bit 31, above the code (R33). -/
theorem presentWord_some (v : BitVec 18) : presentWord (some v) = 0x80000000 ||| v.setWidth 32 :=
  (append_zero_or_setWidth (k := 14) (m := 18) (1#1 ++ 0#13) v).symm

/-- While PEN is held its registers read as its rows hold them (R35). -/
theorem elementAt_penalty (hheld : s.held.getLsbD EVALD = true) (p : Fin 8) {m j : Nat} {w : Word}
    (hm : m = 0x40 + 8 * p + j) (hj : j < 8) (hw : penaltyRegister s.pen[p] j = some w) :
    elementAt s (BitVec.ofNat 24 m) = .known w := by
  rw [elementAt_registers (names_ofNat (n := 0) (i := m) (by omega) (by decide) (by omega)), readRegister_of_ge (by omega),
    readPenalty_of_some hm hj hw, registerOf_held hheld, BitVec.setWidth_eq]

end

/-! ### A step that reads -/

theorem step_read {s : State} {a : Addr} {rest : List HostEvent} (h : s.pending = .read a :: rest) :
    step s = .next (hostRead a { s with pending := rest }) := by
  simp only [step, h, hostEvent]

theorem readRegister_with_pending (s : State) (rest : List HostEvent) (i : Nat) :
    readRegister { s with pending := rest } i = readRegister s i := by
  unfold readRegister
  split <;> rfl

/-- The queue is no element of the port. -/
theorem elementAt_with_pending (s : State) (rest : List HostEvent) (a : Addr) :
    elementAt { s with pending := rest } a = elementAt s a := by
  unfold elementAt
  dsimp only
  split
  case h_1 => exact readRegister_with_pending s rest _
  all_goals rfl

theorem step_read_known {s : State} {a : Addr} {rest : List HostEvent} (h : s.pending = .read a :: rest) {w : Word}
    (hw : elementAt s a = .known w) : step s = .next { s with pending := rest, hostData := w } := by
  rw [step_read h, hostRead_known ((elementAt_with_pending s rest a).trans hw)]

/-- Settles O21: a valid group is held, and a held register reads as it is. -/
theorem hostReadsRegisters : Obligations.HostReadsRegisters := by
  refine ⟨fun s a rest h => ⟨?_, fun w hw => step_read_known h hw⟩, fun s hs => ?_⟩
  · obtain ⟨w, n, hread⟩ := hostRead_cases a { s with pending := rest }
    exact ⟨w, n, (step_read h).trans (congrArg _ hread)⟩
  · have hheld := and_not_eq_zero_iff.mp hs
    refine ⟨rfl, elementAt_status s, rfl, rfl, rfl, rfl, rfl, rfl, fun h => ?_, fun h => ?_, fun h => ?_, fun h => ?_,
      fun h => ?_, fun h => ?_, fun h => ?_, rfl, rfl, rfl, fun h p => ?_⟩
    · obtain ⟨hmode, hminver, hanvalid, -⟩ := elementAt_analysis (hheld _ h)
      exact ⟨hmode, hminver, hanvalid⟩
    · exact ⟨registerOf_held (hheld _ h) _, registerOf_held (hheld _ h) _, registerOf_held (hheld _ h) _⟩
    · exact ⟨registerOf_held (hheld _ h) _, registerOf_held (hheld _ h) _⟩
    · exact registerOf_held (hheld _ h) _
    · exact ⟨registerOf_held (hheld _ h) _, registerOf_held (hheld _ h) _⟩
    · exact registerOf_held (hheld _ h) _
    · have hinfo : elementAt s 0x15 = .known (presentWord s.versioninfo) := registerOf_held (hheld _ h) (presentWord _)
      refine ⟨registerOf_held (hheld _ h) _, fun hnone => ?_, fun v hsome => ?_⟩
      · rw [hinfo, hnone, presentWord]
      · rw [hinfo, hsome, presentWord_some]
    · have hpen := hheld _ h
      exact ⟨elementAt_penalty hpen p (j := 0) (by omega) (by decide) rfl,
        elementAt_penalty hpen p (j := 1) (by omega) (by decide) rfl,
        elementAt_penalty hpen p (j := 2) (by omega) (by decide) rfl,
        elementAt_penalty hpen p (j := 3) (by omega) (by decide) rfl,
        elementAt_penalty hpen p (j := 4) (by omega) (by decide) rfl,
        elementAt_penalty hpen p (j := 5) (by omega) (by decide) rfl⟩

end Sys2Proof.Machine
end

section
/-! Reads beyond a space, of the buffers and tables, and after reset (10_state.md R36 to R50, 20_memory.md R62,
49_config_tables.md R321). -/

namespace Sys2Proof.Machine

/-! ### Buffers -/

section
variable {s : State} {k size width i : Nat}

theorem bufferElement_beyond (h : size ≤ i) (v : Option Word) : bufferElement s k size width i v = .known 0 := if_pos h

theorem bufferElement_some (h : i < size) (hvalid : isValid k s = true) {v : Option Word} {w : Word} (hv : v = some w) :
    bufferElement s k size width i v = .known w := by
  subst hv
  exact (if_neg (Nat.not_le.mpr h)).trans (if_pos hvalid)

theorem readMatrix_beyond (h : size ≤ i) (g : Grid Module) : readMatrix s k g size i = .known 0 := bufferElement_beyond h _

/-- A valid matrix value buffer reads the code of a cell and 0 where there is none (R45). -/
theorem readMatrix_valid (h : i < size) (hvalid : isValid k s = true) {g : Grid Module} {r c : Nat}
    (hr : i % 65536 / 256 = r) (hc : i % 256 = c) :
    readMatrix s k g size i = .known (((g.getD r [])[c]?.map moduleCode).getD 0) := by
  rw [readMatrix, bufferElement_some h hvalid rfl, hr, hc]
  cases (g.getD r [])[c]? <;> rfl

end

/-! ### The tables (R321) -/

section
variable {rom : Rom} {i x : Nat}

theorem readRom_field (hd : i / 65536 = 0) (hx : i % 65536 = x) : readRom rom i =
    if x < 256 then (gfExp x).setWidth 32
    else if x < 512 then BitVec.ofNat 32 (gfLog (BitVec.ofNat 8 (x - 256))) else 0 := by
  simp only [readRom, hd, hx]

theorem readRom_cap (hd : i / 65536 = 1) (hx : i % 65536 = x) : readRom rom i =
    if x < 160 then BitVec.ofNat 32 (capOf rom (x / 4 + 1) (BitVec.ofNat 2 (x % 4))) else 0 := by
  simp only [readRom, hd, hx]

/-- Entry `j` of a plan's row of eight (R321). -/
def planEntry (p : Plan) (j : Nat) : Nat :=
  [p.ec, p.groups.length, (p.groups.getD 0 (0, 0)).1, (p.groups.getD 0 (0, 0)).2, (p.groups.getD 1 (0, 0)).1,
    (p.groups.getD 1 (0, 0)).2].getD j 0

theorem readRom_plan (hd : i / 65536 = 2) (hx : i % 65536 = x) : readRom rom i =
    if x < 1280 then BitVec.ofNat 32 (planEntry (planOf rom (x / 32 + 1) (BitVec.ofNat 2 (x / 8 % 4))) (x % 8))
    else 0 := by
  simp only [readRom, hd, hx]
  split
  · have hj : x % 8 < 8 := by omega
    generalize x % 8 = j at hj
    interval_cases j <;> rfl
  · rfl

theorem readRom_align (hd : i / 65536 = 3) (hx : i % 65536 = x) : readRom rom i =
    if x < 320 then BitVec.ofNat 32 (((alignOf rom (x / 8 + 1)).length :: alignOf rom (x / 8 + 1)).getD (x % 8) 0) else 0 := by
  simp only [readRom, hd, hx]
  split
  · cases x % 8 <;> rfl
  · rfl

theorem readRom_verref (hd : i / 65536 = 4) (hx : i % 65536 = x) : readRom rom i =
    if x < 64 then (verrefOf rom x).setWidth 32 else 0 := by
  simp only [readRom, hd, hx]

theorem readRom_other (hd : 5 ≤ i / 65536) : readRom rom i = 0 := by
  unfold readRom
  dsimp only
  split
  case h_6 => rfl
  all_goals omega

end

/-! ### Beyond the last element (R36, R62) -/

theorem readRom_beyond {rom : Rom} {a : Addr} (hspace : addrSpace a = 15) (h : beyondSpace rom a = true) :
    readRom rom (addrIndex a) = 0 := by
  simp only [beyondSpace, hspace] at h
  split at h
  · next hd =>
    have hx := of_decide_eq_true h
    rw [readRom_field hd rfl, if_neg (by omega), if_neg (by omega)]
  · next hd => exact (readRom_cap hd rfl).trans (if_neg (Nat.not_lt.mpr (of_decide_eq_true h)))
  · next hd => exact (readRom_plan hd rfl).trans (if_neg (Nat.not_lt.mpr (of_decide_eq_true h)))
  · next hd => exact (readRom_align hd rfl).trans (if_neg (Nat.not_lt.mpr (of_decide_eq_true h)))
  · next hd => exact (readRom_verref hd rfl).trans (if_neg (Nat.not_lt.mpr (of_decide_eq_true h)))
  · next h0 h1 h2 h3 h4 =>
    simp only [imp_false] at h0 h1 h2 h3 h4
    exact readRom_other (by omega)

theorem elementAt_beyondSpace {s : State} {a : Addr} (h : beyondSpace s.rom a = true) : elementAt s a = .known 0 := by
  have h16 : addrSpace a < 16 := by
    rw [addrSpace_eq]
    omega
  have hspace15 := h
  unfold beyondSpace at h
  dsimp only at h
  split at h
  case h_1 hspace =>
    rw [elementAt_registers ⟨hspace, rfl⟩]
    exact readRegister_unassigned (by simpa using h) s
  case h_2 hspace => rw [elementAt_text ⟨hspace, rfl⟩, if_neg (Nat.not_lt.mpr (of_decide_eq_true h))]
  case h_3 hspace => exact (elementAt_bits ⟨hspace, rfl⟩).trans (bufferElement_beyond (of_decide_eq_true h) _)
  case h_4 hspace => exact (elementAt_dcw ⟨hspace, rfl⟩).trans (bufferElement_beyond (of_decide_eq_true h) _)
  case h_5 hspace => exact (elementAt_dblk ⟨hspace, rfl⟩).trans (bufferElement_beyond (of_decide_eq_true h) _)
  case h_6 hspace => exact (elementAt_eblk ⟨hspace, rfl⟩).trans (bufferElement_beyond (of_decide_eq_true h) _)
  case h_7 hspace => exact (elementAt_icw ⟨hspace, rfl⟩).trans (bufferElement_beyond (of_decide_eq_true h) _)
  case h_8 hspace => exact (elementAt_mtype ⟨hspace, rfl⟩).trans (bufferElement_beyond (of_decide_eq_true h) _)
  case h_9 hspace => exact (elementAt_mfunc ⟨hspace, rfl⟩).trans (readMatrix_beyond (of_decide_eq_true h) _)
  case h_10 hspace => exact (elementAt_mpre ⟨hspace, rfl⟩).trans (readMatrix_beyond (of_decide_eq_true h) _)
  case h_11 hspace => exact (elementAt_mcand ⟨hspace, rfl⟩).trans (readMatrix_beyond (of_decide_eq_true h) _)
  case h_12 hspace => exact (elementAt_mfinal ⟨hspace, rfl⟩).trans (readMatrix_beyond (of_decide_eq_true h) _)
  case h_13 hspace => rw [elementAt_blk ⟨hspace, rfl⟩, if_neg (Nat.not_lt.mpr (of_decide_eq_true h))]
  case h_14 hspace => exact (elementAt_gen ⟨hspace, rfl⟩).trans (bufferElement_beyond (of_decide_eq_true h) _)
  case h_15 hspace => exact (elementAt_syn ⟨hspace, rfl⟩).trans (bufferElement_beyond (of_decide_eq_true h) _)
  case h_16 =>
    simp only [imp_false] at *
    have hspace : addrSpace a = 15 := by omega
    rw [elementAt_rom ⟨hspace, rfl⟩, readRom_beyond hspace hspace15]

/-- Settles O23: each space ends where its buffer's test, its table's or the register numbers do. -/
theorem readBeyondSpaceIsZero : Obligations.ReadBeyondSpaceIsZero :=
  fun _ _ _ h hbeyond => step_read_known h (elementAt_beyondSpace hbeyond)

/-! ### After hardware reset (R50, R370) -/

theorem readPenalty_reset {i : Nat} (h : 0x40 ≤ i) : readPenalty State.reset i = .known 0 := by
  by_cases hi : 0x80 ≤ i ∨ 6 ≤ i % 8
  · exact readPenalty_unassigned h hi _
  · have hrow : penaltyRegister State.reset.pen[(⟨(i - 0x40) / 8, by omega⟩ : Fin 8)] (i % 8) = some 0 := by
      have hzero : State.reset.pen[(⟨(i - 0x40) / 8, by omega⟩ : Fin 8)] = Penalty.zero := Vector.getElem_replicate _
      have hj : i % 8 < 6 := by omega
      rw [hzero]
      generalize i % 8 = j at hj
      interval_cases j <;> rfl
    refine (readPenalty_of_some ?_ ?_ hrow).trans rfl
    · dsimp only
      omega
    · omega

theorem readRegister_reset (i : Nat) : readRegister State.reset i = .known (if i = 4 then 1 else 0) := by
  unfold readRegister
  split
  case h_25 =>
    have h4 : i ≠ 4 := by assumption
    rw [if_neg h4]
    split
    · next h => exact readPenalty_reset h
    · rfl
  all_goals rfl

/-- Settles O27: the registers are at their reset values and all held, and the reset event restores them. -/
theorem resetState : Obligations.ResetState := by
  refine ⟨fun i hi => ?_, fun s rest h => ?_⟩
  · rw [elementAt_registers (names_ofNat (n := 0) (by omega) (by decide) hi), readRegister_reset]
  · simp only [step, h, hostEvent]
    rfl

end Sys2Proof.Machine
end

section
/-! Reads of the buffers and tables within their elements (10_state.md R40 to R48, 49_config_tables.md R321): the address of an
element, and what is there. -/

namespace Sys2Proof.Machine

section
variable {s : State} {m i : Nat}

/-! ### Byte and bit buffers (R40, R41, R43, R46, R47) -/

theorem elementAt_text_of_lt (hi : i < 8192) :
    elementAt s (BitVec.ofNat 24 (0x100000 + i)) = .known ((readByte s (textBase + i)).setWidth 32) := by
  rw [elementAt_text (names_ofNat (i := i) rfl (by decide) (by omega)), if_pos hi]

theorem elementAt_blk_of_lt (hi : i < 256) :
    elementAt s (BitVec.ofNat 24 (0xC00000 + i)) = .known ((readByte s (blkBase + i)).setWidth 32) := by
  rw [elementAt_blk (names_ofNat (i := i) rfl (by decide) (by omega)), if_pos hi]

/-- A bit is read as 0 or 1. -/
theorem ofBool_setWidth (b : Bool) : (BitVec.ofBool b).setWidth 32 = if b then (1 : Word) else 0 := by
  cases b <;> rfl

section
variable (hi : i < 0x100000)
include hi

theorem elementAt_bits_of_some (hvalid : isValid PACKED s = true) (hsize : i < bitsSize s.rom) {b : Bool}
    (hb : s.bits[i]? = some b) : elementAt s (BitVec.ofNat 24 (0x200000 + i)) = .known (if b then 1 else 0) := by
  rw [elementAt_bits (names_ofNat (i := i) rfl (by decide) hi), ← ofBool_setWidth]
  exact bufferElement_some hsize hvalid (by rw [hb, Option.map_some])

theorem elementAt_dcw_of_some (hvalid : isValid PACKED s = true) (hsize : i < dcwSize s.rom) {b : Byte}
    (hb : s.dcw[i]? = some b) : elementAt s (BitVec.ofNat 24 (0x300000 + i)) = .known (b.setWidth 32) := by
  rw [elementAt_dcw (names_ofNat (i := i) rfl (by decide) hi)]
  exact bufferElement_some hsize hvalid (by rw [hb, Option.map_some])

theorem elementAt_icw_of_some (hvalid : isValid ILV s = true) (hsize : i < icwSize s.rom) {b : Byte}
    (hb : s.icw[i]? = some b) : elementAt s (BitVec.ofNat 24 (0x600000 + i)) = .known (b.setWidth 32) := by
  rw [elementAt_icw (names_ofNat (i := i) rfl (by decide) hi)]
  exact bufferElement_some hsize hvalid (by rw [hb, Option.map_some])

end

theorem elementAt_gen_of_some (hi : i < 256) (hvalid : isValid GENV s = true) {b : Byte} (hb : s.gen[i]? = some b) :
    elementAt s (BitVec.ofNat 24 (0xD00000 + i)) = .known (b.setWidth 32) := by
  rw [elementAt_gen (names_ofNat (i := i) rfl (by decide) (by omega))]
  exact bufferElement_some hi hvalid (by rw [hb, Option.map_some])

theorem elementAt_syn_of_some (hi : i < 255) (hvalid : isValid SYNV s = true) {b : Byte} (hb : s.syn[i]? = some b) :
    elementAt s (BitVec.ofNat 24 (0xE00000 + i)) = .known (b.setWidth 32) := by
  rw [elementAt_syn (names_ofNat (i := i) rfl (by decide) (by omega))]
  exact bufferElement_some hi hvalid (by rw [hb, Option.map_some])

/-! ### Blocks (R42) -/

theorem blockElement_eq {blocks : List (List Byte)} {b : Nat} (hi : i < 256) {x : Byte}
    (hx : (blocks.getD b [])[i]? = some x) : blockElement blocks (256 * b + i) = some (x.setWidth 32) := by
  have hb : (256 * b + i) / 256 = b := by omega
  have hi : (256 * b + i) % 256 = i := by omega
  rw [blockElement, hb, hi, hx, Option.map_some]

section
variable (hvalid : isValid SPLIT s = true) {b : Nat} (hb : b ≤ 80) (hi : i < 255) {x : Byte}
include hvalid hb hi

theorem elementAt_dblk_of_some (hx : (s.dblk.getD b [])[i]? = some x) :
    elementAt s (BitVec.ofNat 24 (0x400000 + 256 * b + i)) = .known (x.setWidth 32) := by
  rw [elementAt_dblk (names_ofNat (i := 256 * b + i) (by omega) (by decide) (by omega))]
  exact bufferElement_some (by unfold blockSpaceSize; omega) hvalid (blockElement_eq (by omega) hx)

theorem elementAt_eblk_of_some (hx : (s.eblk.getD b [])[i]? = some x) :
    elementAt s (BitVec.ofNat 24 (0x500000 + 256 * b + i)) = .known (x.setWidth 32) := by
  rw [elementAt_eblk (names_ofNat (i := 256 * b + i) (by omega) (by decide) (by omega))]
  exact bufferElement_some (by unfold blockSpaceSize; omega) hvalid (blockElement_eq (by omega) hx)

end

/-! ### Matrices (R44, R45) -/

section
variable {r c : Nat}

theorem elementAt_mtype_of_some (hvalid : isValid MINIT s = true) (hr : r ≤ 176) (hc : c ≤ 176) {y : ModuleType}
    (hy : (s.mtype.getD r [])[c]? = some y) :
    elementAt s (BitVec.ofNat 24 (0x700000 + 256 * r + c)) = .known (typeCode y) := by
  have hrow : (256 * r + c) / 256 = r := by omega
  have hcol : (256 * r + c) % 256 = c := by omega
  rw [elementAt_mtype (names_ofNat (i := 256 * r + c) (by omega) (by decide) (by omega)), hrow, hcol]
  exact bufferElement_some (by unfold matrixSpaceSize; omega) hvalid (by rw [hy, Option.map_some])

/-- What a valid value matrix reads at a row and column: a cell's code, and 0 where there is no cell. -/
def cellWord (g : Grid Module) (r c : Nat) : Word := ((g.getD r [])[c]?.map moduleCode).getD 0

theorem cellWord_of_some {g : Grid Module} {v : Module} (h : (g.getD r [])[c]? = some v) : cellWord g r c = moduleCode v := by
  rw [cellWord, h, Option.map_some, Option.getD_some]

theorem cellWord_of_none {g : Grid Module} (h : (g.getD r [])[c]? = none) : cellWord g r c = 0 := by
  rw [cellWord, h, Option.map_none, Option.getD_none]

/-- The row and column are those of a cell of the largest matrix, or of no cell at all. -/
def ReadsAsCell (g : Grid Module) (r c : Nat) : Prop := (r ≤ 176 ∧ c ≤ 176) ∨ (r < 256 ∧ c < 256 ∧ (g.getD r [])[c]? = none)

section
variable {g : Grid Module} (h : ReadsAsCell g r c)
include h

theorem ReadsAsCell.lt : r < 256 ∧ c < 256 := by
  unfold ReadsAsCell at h
  omega

/-- A matrix whose cells begin at index `65536·p` of a space that ends behind the largest matrix there, or later. -/
theorem readMatrix_eq_cellWord {k p size : Nat} (hvalid : isValid k s = true) (hsize : 65536 * p + matrixSpaceSize ≤ size) :
    readMatrix s k g size (65536 * p + 256 * r + c) = .known (cellWord g r c) := by
  obtain ⟨hr, hc⟩ := h.lt
  by_cases hlt : 65536 * p + 256 * r + c < size
  · exact readMatrix_valid hlt hvalid (by omega) (by omega)
  · rcases h with hcell | ⟨-, -, hnone⟩
    · unfold matrixSpaceSize at hsize
      omega
    · rw [readMatrix_beyond (by omega), cellWord_of_none hnone]

end

theorem elementAt_mfunc_eq (hvalid : isValid MINIT s = true) (h : ReadsAsCell s.mfunc r c) :
    elementAt s (BitVec.ofNat 24 (0x800000 + 256 * r + c)) = .known (cellWord s.mfunc r c) := by
  obtain ⟨hr, hc⟩ := h.lt
  rw [elementAt_mfunc (names_ofNat (i := 65536 * 0 + 256 * r + c) (by omega) (by decide) (by omega))]
  exact readMatrix_eq_cellWord h hvalid (by omega)

theorem elementAt_mpre_eq (hvalid : isValid PLACED s = true) (h : ReadsAsCell s.mpre r c) :
    elementAt s (BitVec.ofNat 24 (0x900000 + 256 * r + c)) = .known (cellWord s.mpre r c) := by
  obtain ⟨hr, hc⟩ := h.lt
  rw [elementAt_mpre (names_ofNat (i := 65536 * 0 + 256 * r + c) (by omega) (by decide) (by omega))]
  exact readMatrix_eq_cellWord h hvalid (by omega)

theorem elementAt_mfinal_eq (hvalid : isValid STAMPED s = true) (h : ReadsAsCell s.mfinal r c) :
    elementAt s (BitVec.ofNat 24 (0xB00000 + 256 * r + c)) = .known (cellWord s.mfinal r c) := by
  obtain ⟨hr, hc⟩ := h.lt
  rw [elementAt_mfinal (names_ofNat (i := 65536 * 0 + 256 * r + c) (by omega) (by decide) (by omega))]
  exact readMatrix_eq_cellWord h hvalid (by omega)

theorem elementAt_mcand_eq (hvalid : isValid EVALD s = true) (p : Fin 8) (h : ReadsAsCell s.mcand[p] r c) :
    elementAt s (BitVec.ofNat 24 (0xA00000 + 65536 * p.val + 256 * r + c)) = .known (cellWord s.mcand[p] r c) := by
  obtain ⟨hr, hc⟩ := h.lt
  have hp : (65536 * p.val + 256 * r + c) / 65536 = p := by omega
  have hcand : s.mcand[p.val]?.getD [] = s.mcand[p] := by
    rw [Vector.getElem?_eq_getElem p.isLt, Option.getD_some, Fin.getElem_fin]
  rw [elementAt_mcand (names_ofNat (i := 65536 * p.val + 256 * r + c) (by omega) (by decide) (by omega)), hp, hcand]
  exact readMatrix_eq_cellWord h hvalid (by omega)

end

/-! ### The tables (R48, R321) -/

/-- Space 15 begins at 0xF00000 and holds a table every 65536 elements. -/
theorem elementAt_table {t x : Nat} (hm : m = 0xF00000 + 65536 * t + x) (ht : t < 16) (hx : x < 65536) :
    elementAt s (BitVec.ofNat 24 m) = .known (readRom s.rom (65536 * t + x)) := by
  rw [elementAt_rom (names_ofNat (i := 65536 * t + x) (by omega) (by decide) (by omega))]

theorem elementAt_exp (hi : i < 256) :
    elementAt s (BitVec.ofNat 24 (0xF00000 + i)) = .known ((gfExp i).setWidth 32) := by
  rw [elementAt_table (t := 0) (x := i) (by omega) (by decide) (by omega), readRom_field (x := i) (by omega) (by omega),
    if_pos hi]

theorem elementAt_log (hi : i < 256) :
    elementAt s (BitVec.ofNat 24 (0xF00100 + i)) = .known (BitVec.ofNat 32 (gfLog (BitVec.ofNat 8 i))) := by
  rw [elementAt_table (t := 0) (x := 256 + i) (by omega) (by decide) (by omega),
    readRom_field (x := 256 + i) (by omega) (by omega), if_neg (by omega), if_pos (by omega), Nat.add_sub_cancel_left]

section
variable {v : Nat} (h1 : 1 ≤ v) (h40 : v ≤ 40)
include h1 h40

theorem elementAt_cap (lc : BitVec 2) :
    elementAt s (BitVec.ofNat 24 (0xF10000 + 4 * (v - 1) + lc.toNat)) = .known (BitVec.ofNat 32 (capOf s.rom v lc)) := by
  have hlc := lc.isLt
  have hv : (4 * (v - 1) + lc.toNat) / 4 + 1 = v := by omega
  have hlevel : (4 * (v - 1) + lc.toNat) % 4 = lc.toNat := by omega
  rw [elementAt_table (t := 1) (x := 4 * (v - 1) + lc.toNat) (by omega) (by decide) (by omega),
    readRom_cap (x := 4 * (v - 1) + lc.toNat) (by omega) (by omega), if_pos (by omega), hv, hlevel, BitVec.ofNat_toNat,
    BitVec.setWidth_eq]

theorem elementAt_plan (lc : BitVec 2) {j : Nat} (hj : j < 8) (hm : m = 0xF20000 + 8 * (4 * (v - 1) + lc.toNat) + j) :
    elementAt s (BitVec.ofNat 24 m) = .known (BitVec.ofNat 32 (planEntry (planOf s.rom v lc) j)) := by
  have hlc := lc.isLt
  have hv : (8 * (4 * (v - 1) + lc.toNat) + j) / 32 + 1 = v := by omega
  have hlevel : (8 * (4 * (v - 1) + lc.toNat) + j) / 8 % 4 = lc.toNat := by omega
  have hentry : (8 * (4 * (v - 1) + lc.toNat) + j) % 8 = j := by omega
  rw [elementAt_table (t := 2) (x := 8 * (4 * (v - 1) + lc.toNat) + j) (by omega) (by decide) (by omega),
    readRom_plan (x := 8 * (4 * (v - 1) + lc.toNat) + j) (by omega) (by omega), if_pos (by omega), hv, hlevel, hentry,
    BitVec.ofNat_toNat, BitVec.setWidth_eq]

theorem elementAt_align {j : Nat} (hj : j < 8) :
    elementAt s (BitVec.ofNat 24 (0xF30000 + 8 * (v - 1) + j)) =
      .known (BitVec.ofNat 32 (((alignOf s.rom v).length :: alignOf s.rom v).getD j 0)) := by
  have hv : (8 * (v - 1) + j) / 8 + 1 = v := by omega
  have hentry : (8 * (v - 1) + j) % 8 = j := by omega
  rw [elementAt_table (t := 3) (x := 8 * (v - 1) + j) (by omega) (by decide) (by omega),
    readRom_align (x := 8 * (v - 1) + j) (by omega) (by omega), if_pos (by omega), hv, hentry]

end

theorem elementAt_verref {v : Nat} (hv : v < 64) :
    elementAt s (BitVec.ofNat 24 (0xF40000 + v)) =
      .known (if 7 ≤ v ∧ v ≤ 40 then (s.rom.verref.getD (v - 7) 0).setWidth 32 else 0) := by
  rw [elementAt_table (t := 4) (x := v) (by omega) (by decide) (by omega), readRom_verref (x := v) (by omega) (by omega),
    if_pos hv, verrefOf]
  split <;> rfl

/-- The two groups of a plan take two entries each. -/
theorem planEntry_group (p : Plan) {g : Nat} (hg : g < 2) :
    planEntry p (2 + 2 * g) = (p.groups.getD g (0, 0)).1 ∧ planEntry p (3 + 2 * g) = (p.groups.getD g (0, 0)).2 := by
  interval_cases g <;> exact ⟨rfl, rfl⟩

end

/-- Settles O22: space by space, the index of an element and the element there. -/
theorem hostReadsBuffers : Obligations.HostReadsBuffers := by
  intro s
  refine ⟨fun i => elementAt_text_of_lt, fun i => elementAt_blk_of_lt, fun h => ⟨?_, ?_⟩, fun h b hb i hi x => ⟨?_, ?_⟩,
    fun h i hi hsize b => elementAt_icw_of_some hi h hsize, fun r hr c hc => ⟨?_, ?_, ?_, ?_⟩,
    fun r hr c hc => ⟨?_, ?_, ?_, ?_⟩, fun h i hi b => elementAt_gen_of_some hi h, fun h i hi b => elementAt_syn_of_some hi h,
    fun i hi => ⟨elementAt_exp hi, elementAt_log hi⟩, fun v h1 h40 lc => ⟨elementAt_cap h1 h40 lc, ?_⟩,
    fun v h1 h40 => ⟨elementAt_align h1 h40 (j := 0) (by decide), fun j hj => elementAt_align h1 h40 (by omega)⟩,
    fun v => elementAt_verref⟩
  · exact fun i hi hsize b => elementAt_bits_of_some hi h hsize
  · exact fun i hi hsize b => elementAt_dcw_of_some hi h hsize
  · exact elementAt_dblk_of_some h hb hi
  · exact elementAt_eblk_of_some h hb hi
  · refine fun h => ⟨fun y => elementAt_mtype_of_some h hr hc, fun v hv => ?_⟩
    rw [elementAt_mfunc_eq h (.inl ⟨hr, hc⟩), cellWord_of_some hv]
  · exact fun h v hv => by rw [elementAt_mpre_eq h (.inl ⟨hr, hc⟩), cellWord_of_some hv]
  · exact fun h p v hv => by rw [elementAt_mcand_eq h p (.inl ⟨hr, hc⟩), cellWord_of_some hv]
  · exact fun h v hv => by rw [elementAt_mfinal_eq h (.inl ⟨hr, hc⟩), cellWord_of_some hv]
  · exact fun h hnone => by rw [elementAt_mfunc_eq h (.inr ⟨hr, hc, hnone⟩), cellWord_of_none hnone]
  · exact fun h hnone => by rw [elementAt_mpre_eq h (.inr ⟨hr, hc, hnone⟩), cellWord_of_none hnone]
  · exact fun h p hnone => by rw [elementAt_mcand_eq h p (.inr ⟨hr, hc, hnone⟩), cellWord_of_none hnone]
  · exact fun h hnone => by rw [elementAt_mfinal_eq h (.inr ⟨hr, hc, hnone⟩), cellWord_of_none hnone]
  · intro base plan
    have hentry : ∀ j < 8, elementAt s (BitVec.ofNat 24 (base + j)) = .known (BitVec.ofNat 32 (planEntry plan j)) :=
      fun j hj => elementAt_plan h1 h40 lc hj rfl
    refine ⟨hentry 0 (by decide), hentry 1 (by decide), fun g hg => ?_, hentry 6 (by decide), hentry 7 (by decide)⟩
    obtain ⟨hblocks, hdata⟩ := planEntry_group plan hg
    rw [← hblocks, ← hdata, Nat.add_assoc base, Nat.add_assoc base]
    exact ⟨hentry _ (by omega), hentry _ (by omega)⟩

end Sys2Proof.Machine
end

section
/-! Host writes other than of `REG.CMD` (10_state.md R25, R27, R36, R40, R46, 20_memory.md R60 to R63): an address names one
element that a write stores into, or nothing. -/

namespace Sys2Proof.Machine

/-! ### A step that writes -/

theorem step_write {s : State} {a : Addr} {w : Word} {rest : List HostEvent} (h : s.pending = .write a w :: rest)
    (ha : a ≠ cmdAddr) : step s = .next (hostWrite a w { s with pending := rest }) := by
  simp only [step, h, hostEvent, if_neg ha]

/-! ### What each space writes -/

section
variable {a : Addr} {i : Nat} (w : Word) (s : State)

theorem hostWrite_register (h : Names a 0 i) : hostWrite a w s = writeRegister i w s := by
  simp only [hostWrite, h.space, h.index]

theorem hostWrite_text (h : Names a 1 i) (hi : i < 8192) :
    hostWrite a w s = endRun (writeByte (textBase + i) (w.setWidth 8) s) := by
  simp only [hostWrite, h.space, h.index, if_pos hi]

theorem hostWrite_blk (h : Names a 12 i) (hi : i < 256) : hostWrite a w s = writeByte (blkBase + i) (w.setWidth 8) s := by
  simp only [hostWrite, h.space, h.index, if_pos hi]

end

/-- What the address of a writable element other than `REG.CMD` names (R63). -/
theorem writable_cases {a : Addr} (h : hostWritable a = true) (ha : a ≠ cmdAddr) :
    a = 5 ∨ a = 6 ∨ a = 7 ∨ (∃ i < 8192, Names a 1 i) ∨ ∃ i < 256, Names a 12 i := by
  unfold hostWritable at h
  split at h
  · next hspace =>
    simp only [Bool.or_eq_true, beq_iff_eq] at h
    rcases h with ((h | h) | h) | h
    · exact (ha (addr_ext hspace h)).elim
    · exact .inl (addr_ext hspace h)
    · exact .inr (.inl (addr_ext hspace h))
    · exact .inr (.inr (.inl (addr_ext hspace h)))
  · next hspace => exact .inr (.inr (.inr (.inl ⟨_, of_decide_eq_true h, hspace, rfl⟩)))
  · next hspace => exact .inr (.inr (.inr (.inr ⟨_, of_decide_eq_true h, hspace, rfl⟩)))
  · exact (Bool.noConfusion h)

/-- A write to a location that is not writable is ignored (R63). -/
theorem hostWrite_ignored {a : Addr} (h : hostWritable a = false) (w : Word) (s : State) : hostWrite a w s = s := by
  unfold hostWritable at h
  split at h
  · next hspace =>
    rw [hostWrite_register w s ⟨hspace, rfl⟩]
    unfold writeRegister
    split
    case h_4 => rfl
    all_goals next hindex => simp [hindex] at h
  · next hspace => simp only [hostWrite, hspace, if_neg (of_decide_eq_false h)]
  · next hspace => simp only [hostWrite, hspace, if_neg (of_decide_eq_false h)]
  · simp only [hostWrite]

/-- Settles O26: what is not writable is not `REG.CMD` either, and nothing of a write is left. -/
theorem readOnlyWriteIgnored : Obligations.ReadOnlyWriteIgnored := by
  intro s a w rest hpending h
  have ha : a ≠ cmdAddr := by
    rintro rfl
    exact Bool.noConfusion h
  rw [step_write hpending ha, hostWrite_ignored h]

/-- The end of a run clears the stage bits (R25 (c)). -/
theorem endRun_eq (s : State) : endRun s = { s with valid := s.valid &&& 0xC01, held := s.held &&& 0xC01 } := by
  rw [endRun, clearStages, not_stagesFrom_1]
  rfl

/-- An address of another space is no register's. -/
theorem ne_of_names {a b : Addr} {n i : Nat} (h : Names a n i) (hn : n ≠ 0) (hb : addrSpace b = 0) : a ≠ b := by
  rintro rfl
  exact hn (h.space.symm.trans hb)

/-- Settles O25: each of the four ends the run, and BLK's element is no input of a run. -/
theorem inputWriteEndsRun : Obligations.InputWriteEndsRun := by
  intro s a w rest hpending
  refine ⟨?_, ?_, ?_, fun i hi ha => ?_, fun i hi ha => ?_⟩
  · rintro rfl
    exact (step_write hpending (by decide)).trans (congrArg _ (endRun_eq _))
  · rintro rfl
    exact (step_write hpending (by decide)).trans (congrArg _ (endRun_eq _))
  · rintro rfl
    exact (step_write hpending (by decide)).trans (congrArg _ (endRun_eq _))
  · have hnames : Names a 1 i := ha ▸ names_ofNat rfl (by decide) (by omega)
    rw [step_write hpending (ne_of_names hnames (by decide) rfl), hostWrite_text w _ hnames hi, endRun_eq]
    rfl
  · have hnames : Names a 12 i := ha ▸ names_ofNat rfl (by decide) (by omega)
    rw [step_write hpending (ne_of_names hnames (by decide) rfl), hostWrite_blk w _ hnames hi]
    rfl

/-! ### Writing, then reading -/

theorem toNat_of_names {a : Addr} {n i : Nat} (h : Names a n i) : a.toNat = 0x100000 * n + i := by
  have hspace := h.space
  have hindex := h.index
  rw [addrSpace_eq] at hspace
  rw [addrIndex_eq] at hindex
  omega

section
variable {s : State} {a : Addr} {w : Word} {rest : List HostEvent}

/-- The read after a write returns what the element then is, and reads change no byte. -/
theorem write_then_read (h : s.pending = .write a w :: .read a :: rest) (ha : a ≠ cmdAddr) {v : Word}
    (hv : elementAt (hostWrite a w { s with pending := .read a :: rest }) a = .known v)
    (hbytes : ∀ b, b ≠ a.toNat → readByte (hostWrite a w { s with pending := .read a :: rest }) b = readByte s b) :
    ∃ t u, step s = .next t ∧ step t = .next u ∧ u.pending = rest ∧ u.hostData = v ∧
      ∀ b, b ≠ a.toNat → readByte u b = readByte s b := by
  have hpending := (hostWrite_pending_rom a w { s with pending := .read a :: rest }).1
  exact ⟨_, _, step_write h ha, step_read_known hpending hv, rfl, rfl, fun b hb => (readByte_congr rfl rfl b).trans (hbytes b hb)⟩

end

theorem readByte_endRun (s : State) (b : Nat) : readByte (endRun s) b = readByte s b := readByte_congr rfl rfl b

/-- Settles O24: the read of an address sees the element the write stored into. -/
theorem readReturnsLastWrite : Obligations.ReadReturnsLastWrite := by
  intro s a w rest h hwritable ha
  rcases writable_cases hwritable ha with rfl | rfl | rfl | ⟨i, hi, hnames⟩ | ⟨i, hi, hnames⟩
  · exact write_then_read h ha rfl fun b _ => readByte_congr rfl rfl b
  · exact write_then_read h ha rfl fun b _ => readByte_congr rfl rfl b
  · exact write_then_read h ha rfl fun b _ => readByte_congr rfl rfl b
  · have haddr : a.toNat = textBase + i := toNat_of_names hnames
    rw [if_neg (ne_of_names hnames (by decide) rfl), if_neg (ne_of_names hnames (by decide) rfl),
      if_neg (ne_of_names hnames (by decide) rfl)]
    refine write_then_read h ha ?_ fun b hb => ?_
    · rw [hostWrite_text w _ hnames hi, elementAt_text hnames, if_pos hi, readByte_endRun, readByte_writeByte_same]
    · rw [hostWrite_text w _ hnames hi, readByte_endRun, readByte_writeByte_other _ (haddr ▸ hb)]
      exact readByte_congr rfl rfl b
  · have haddr : a.toNat = blkBase + i := toNat_of_names hnames
    rw [if_neg (ne_of_names hnames (by decide) rfl), if_neg (ne_of_names hnames (by decide) rfl),
      if_neg (ne_of_names hnames (by decide) rfl)]
    refine write_then_read h ha ?_ fun b hb => ?_
    · rw [hostWrite_blk w _ hnames hi, elementAt_blk hnames, if_pos hi, readByte_writeByte_same]
    · rw [hostWrite_blk w _ hnames hi, readByte_writeByte_other _ (haddr ▸ hb)]
      exact readByte_congr rfl rfl b

end Sys2Proof.Machine
end

section
/-! How many data cells a matrix has (44_matrix_rasterizer.md R192 to R202, 49_config_tables.md R322 (d)): the functional cells
are rectangles with no cell in common, where the alignment patterns are clear of each other and of the corners. -/

namespace Sys2Proof.Machine

/-! ### Disjoint sets of cells -/

/-- The cells of any set of a list. -/
def unionAll (l : List (Finset (Nat × Nat))) : Finset (Nat × Nat) := l.foldr (· ∪ ·) ∅

theorem mem_unionAll {l : List (Finset (Nat × Nat))} {x : Nat × Nat} : x ∈ unionAll l ↔ ∃ t ∈ l, x ∈ t := by
  induction l with
  | nil => simp [unionAll]
  | cons t l ih => simp [unionAll, ← ih]

/-- Sets with no cell in common are counted one by one. -/
theorem card_unionAll {l : List (Finset (Nat × Nat))} (h : l.Pairwise Disjoint) :
    (unionAll l).card = (l.map Finset.card).sum := by
  induction l with
  | nil => rfl
  | cons t l ih =>
    obtain ⟨ht, hl⟩ := List.pairwise_cons.mp h
    have hdisjoint : Disjoint t (unionAll l) := Finset.disjoint_left.mpr fun x hx hxl => by
      obtain ⟨u, hu, hxu⟩ := mem_unionAll.mp hxl
      exact Finset.disjoint_left.mp (ht u hu) hx hxu
    rw [List.map_cons, List.sum_cons, ← ih hl]
    exact Finset.card_union_of_disjoint hdisjoint

/-- Counting in a list of cells and in the set of the same cells. -/
theorem countP_product_range (size : Nat) (f : Nat × Nat → Bool) : (List.range size ×ˢ List.range size).countP f =
    ((Finset.range size ×ˢ Finset.range size).filter fun x => f x = true).card := by
  rw [Finset.card_def, Finset.filter_val, ← Multiset.countP_eq_card_filter, Finset.product_val, Finset.range_val,
    Multiset.range, Multiset.coe_product, Multiset.coe_countP]
  simp only [Bool.decide_eq_true]

/-! ### Alignment patterns clear of everything but the timing patterns (R322 (d)) -/

/-- The pattern centred at `p` lies inside the grid, off the corners with finder, separator and format strip, and off the
version blocks. -/
def Clear (v : Nat) (p : Nat × Nat) : Prop :=
  2 ≤ p.1 ∧ p.1 + 2 < matrixSize v ∧ 2 ≤ p.2 ∧ p.2 + 2 < matrixSize v ∧
    ¬ (p.1 ≤ 10 ∧ p.2 ≤ 10) ∧ ¬ (p.1 ≤ 10 ∧ matrixSize v ≤ p.2 + 10) ∧ ¬ (matrixSize v ≤ p.1 + 10 ∧ p.2 ≤ 10) ∧
    ¬ (7 ≤ v ∧ p.1 ≤ 7 ∧ matrixSize v ≤ p.2 + 13 ∧ p.2 + 7 ≤ matrixSize v) ∧
    ¬ (7 ≤ v ∧ p.2 ≤ 7 ∧ matrixSize v ≤ p.1 + 13 ∧ p.1 + 7 ≤ matrixSize v)

/-- Coordinates at least five apart give centres of patterns that do not touch. -/
theorem pairwise_apart_alignmentCentres {size : Nat} {coords : List Nat} (h : coords.Pairwise fun a b => a + 5 ≤ b) :
    (alignmentCentres size coords).Pairwise Apart := by
  refine List.Pairwise.filter _ (List.pairwise_flatMap.mpr ⟨fun a _ => ?_, h.imp fun hab x hx y hy => ?_⟩)
  · refine List.pairwise_map.mpr (h.imp fun hbc => .inr ?_)
    unfold absDiff
    omega
  · obtain ⟨b, -, rfl⟩ := List.mem_map.mp hx
    obtain ⟨b', -, rfl⟩ := List.mem_map.mp hy
    refine .inl ?_
    unfold absDiff
    omega

/-- Off the corners and the version blocks a matrix without alignment patterns has timing and data cells only. -/
theorem functionCell_clear {v r c : Nat} (hv : 1 ≤ v) (hr : r < matrixSize v) (hc : c < matrixSize v)
    (hcorners : ¬ (r ≤ 8 ∧ c ≤ 8) ∧ ¬ (r ≤ 8 ∧ matrixSize v ≤ c + 8) ∧ ¬ (matrixSize v ≤ r + 8 ∧ c ≤ 8))
    (hversion : ¬ (7 ≤ v ∧ r ≤ 5 ∧ matrixSize v ≤ c + 11 ∧ c + 9 ≤ matrixSize v) ∧
      ¬ (7 ≤ v ∧ c ≤ 5 ∧ matrixSize v ≤ r + 11 ∧ r + 9 ≤ matrixSize v)) :
    (functionCell v [] r c).2 = .timing ∨ (functionCell v [] r c).2 = .data := by
  obtain ⟨h1, h2, h3⟩ := hcorners
  obtain ⟨h4, h5⟩ := hversion
  have ha : alignmentStamp (matrixSize v) [] r c = none := alignmentStamp_eq_none fun p hp => nomatch hp
  by_cases h6 : r = 6 ∨ c = 6
  · left
    rcases h6 with rfl | rfl
    · rw [functionCell_of_timing_row hv ha ⟨rfl, by omega, by omega⟩]
    · rw [functionCell_of_timing_col hv ha ⟨rfl, by omega, by omega⟩]
  · right
    exact (functionCell_data_iff [] hv hr hc).mpr ⟨h1, h2, h3, by omega, by omega, h4, h5, fun p hp => nomatch hp⟩

/-- Clear patterns, whose coordinates are at least five apart, are as R322 (d) asks. -/
theorem alignPremise_of_clear {v : Nat} {coords : List Nat} (hv : 1 ≤ v) (hlength : coords.length ≤ 7)
    (hgap : coords.Pairwise fun a b => a + 5 ≤ b) (hnone : v = 1 → coords = [])
    (hclear : ∀ p ∈ alignmentCentres (matrixSize v) coords, Clear v p) : AlignPremise v coords := by
  refine ⟨hlength, hgap.imp fun h => by omega, hnone, fun p hp => ?_, pairwise_apart_alignmentCentres hgap⟩
  have hp := hclear p hp
  unfold Clear at hp
  refine ⟨by omega, by omega, by omega, by omega, fun i hi j hj => ?_⟩
  exact functionCell_clear hv (by omega) (by omega) (by omega) (by omega)

/-! ### The functional cells, rectangle by rectangle -/

/-- A rectangle of cells, its lower and right ends excluded. -/
structure Rect where
  top : Nat
  bottom : Nat
  left : Nat
  right : Nat

/-- The cells inside. -/
def Rect.cells (q : Rect) : Finset (Nat × Nat) := Finset.Ico q.top q.bottom ×ˢ Finset.Ico q.left q.right

theorem Rect.mem_cells {q : Rect} {x : Nat × Nat} :
    x ∈ q.cells ↔ (q.top ≤ x.1 ∧ x.1 < q.bottom) ∧ q.left ≤ x.2 ∧ x.2 < q.right := by
  simp only [cells, Finset.mem_product, Finset.mem_Ico]

theorem Rect.card_cells (q : Rect) : q.cells.card = (q.bottom - q.top) * (q.right - q.left) := by
  rw [cells, Finset.card_product, Nat.card_Ico, Nat.card_Ico]

/-- One rectangle lies above or left of the other. -/
def Rect.Off (q r : Rect) : Prop := q.bottom ≤ r.top ∨ r.bottom ≤ q.top ∨ q.right ≤ r.left ∨ r.right ≤ q.left

theorem Rect.Off.disjoint {q r : Rect} (h : q.Off r) : Disjoint q.cells r.cells := by
  refine Finset.disjoint_left.mpr fun x hq hr => ?_
  rw [mem_cells] at hq hr
  unfold Off at h
  omega

/-- The number of rows of the top-right version block (R197). -/
def versionRows (v : Nat) : Nat := if 7 ≤ v then 6 else 0

theorem versionRows_eq (v : Nat) : (7 ≤ v ∧ versionRows v = 6) ∨ (v < 7 ∧ versionRows v = 0) := by
  unfold versionRows
  split <;> omega

/-- The corners with finder, separator and format strip, the timing patterns between them, and the version blocks. -/
def fixedRects (v : Nat) : List Rect :=
  [⟨0, 9, 0, 9⟩, ⟨0, 9, matrixSize v - 8, matrixSize v⟩, ⟨matrixSize v - 8, matrixSize v, 0, 9⟩,
    ⟨6, 7, 9, matrixSize v - 8⟩, ⟨9, matrixSize v - 8, 6, 7⟩,
    ⟨0, versionRows v, matrixSize v - 11, matrixSize v - 8⟩, ⟨matrixSize v - 11, matrixSize v - 8, 0, versionRows v⟩]

/-- The cells of the pattern centred at `p` that are no timing cells. -/
def patternCells (p : Nat × Nat) : Finset (Nat × Nat) :=
  (Finset.Ico (p.1 - 2) (p.1 + 3)).erase 6 ×ˢ (Finset.Ico (p.2 - 2) (p.2 + 3)).erase 6

theorem mem_patternCells {p x : Nat × Nat} : x ∈ patternCells p ↔
    (x.1 ≠ 6 ∧ p.1 - 2 ≤ x.1 ∧ x.1 < p.1 + 3) ∧ x.2 ≠ 6 ∧ p.2 - 2 ≤ x.2 ∧ x.2 < p.2 + 3 := by
  simp only [patternCells, Finset.mem_product, Finset.mem_erase, Finset.mem_Ico]

/-- Off the timing patterns these are the cells at most two rows and columns away. -/
theorem mem_patternCells_iff_near {v : Nat} {p x : Nat × Nat} (hp : Clear v p) :
    x ∈ patternCells p ↔ x.1 ≠ 6 ∧ x.2 ≠ 6 ∧ absDiff x.1 p.1 ≤ 2 ∧ absDiff x.2 p.2 ≤ 2 := by
  unfold Clear at hp
  rw [mem_patternCells]
  unfold absDiff
  omega

/-- All cells that are not for data, in sets with no cell in common. -/
def functionalCells (v : Nat) (centres : List (Nat × Nat)) : List (Finset (Nat × Nat)) :=
  (fixedRects v).map Rect.cells ++ centres.map patternCells

theorem mem_functionalCells {v : Nat} {centres : List (Nat × Nat)} {x : Nat × Nat} :
    x ∈ unionAll (functionalCells v centres) ↔
      (∃ q ∈ fixedRects v, x ∈ q.cells) ∨ ∃ p ∈ centres, x ∈ patternCells p := by
  simp only [mem_unionAll, functionalCells, List.mem_append, or_and_right, exists_or, List.mem_map,
    exists_exists_and_eq_and]

section
variable {v : Nat} (hv : 1 ≤ v)
include hv

theorem pairwise_off_fixedRects : (fixedRects v).Pairwise Rect.Off := by
  have hs := le_matrixSize hv
  have hrows := versionRows_eq v
  have hsize := matrixSize_eq v
  simp only [fixedRects, List.pairwise_cons, List.forall_mem_cons, List.not_mem_nil, false_imp_iff, implies_true,
    List.Pairwise.nil, and_true, Rect.Off]
  omega

theorem fixedRects_inside : ∀ q ∈ fixedRects v, q.bottom ≤ matrixSize v ∧ q.right ≤ matrixSize v := by
  have hs := le_matrixSize hv
  have hrows := versionRows_eq v
  simp only [fixedRects, List.forall_mem_cons, List.not_mem_nil, false_imp_iff, implies_true, and_true]
  omega

/-- The fixed functional cells by their coordinates. -/
theorem mem_fixedRects {x : Nat × Nat} (hr : x.1 < matrixSize v) (hc : x.2 < matrixSize v) :
    (∃ q ∈ fixedRects v, x ∈ q.cells) ↔
      (x.1 ≤ 8 ∧ x.2 ≤ 8) ∨ (x.1 ≤ 8 ∧ matrixSize v ≤ x.2 + 8) ∨ (matrixSize v ≤ x.1 + 8 ∧ x.2 ≤ 8) ∨ x.1 = 6 ∨ x.2 = 6 ∨
      (7 ≤ v ∧ x.1 ≤ 5 ∧ matrixSize v ≤ x.2 + 11 ∧ x.2 + 9 ≤ matrixSize v) ∨
      (7 ≤ v ∧ x.2 ≤ 5 ∧ matrixSize v ≤ x.1 + 11 ∧ x.1 + 9 ≤ matrixSize v) := by
  have hs := le_matrixSize hv
  have hrows := versionRows_eq v
  simp only [fixedRects, List.exists_mem_cons_iff, List.not_mem_nil, false_and, exists_false, or_false, Rect.mem_cells]
  omega

theorem disjoint_fixedRects_patternCells {q : Rect} (hq : q ∈ fixedRects v) {p : Nat × Nat} (hp : Clear v p) :
    Disjoint q.cells (patternCells p) := by
  refine Finset.disjoint_left.mpr fun x hx hxp => ?_
  rw [mem_patternCells] at hxp
  unfold Clear at hp
  have hfixed := (mem_fixedRects hv (x := x) (by omega) (by omega)).mp ⟨q, hq, hx⟩
  omega

end

theorem disjoint_patternCells {p q : Nat × Nat} (h : Apart p q) : Disjoint (patternCells p) (patternCells q) := by
  refine Finset.disjoint_left.mpr fun x hp hq => ?_
  rw [mem_patternCells] at hp hq
  unfold Apart absDiff at h
  omega

section
variable {v : Nat} {coords : List Nat} (hv : 1 ≤ v)
  (hclear : ∀ p ∈ alignmentCentres (matrixSize v) coords, Clear v p)
include hv hclear

theorem pairwise_disjoint_functionalCells (hgap : coords.Pairwise fun a b => a + 5 ≤ b) :
    (functionalCells v (alignmentCentres (matrixSize v) coords)).Pairwise Disjoint := by
  refine List.pairwise_append.mpr ⟨List.pairwise_map.mpr ((pairwise_off_fixedRects hv).imp Rect.Off.disjoint),
    List.pairwise_map.mpr ((pairwise_apart_alignmentCentres hgap).imp disjoint_patternCells), fun s hs t ht => ?_⟩
  obtain ⟨q, hq, rfl⟩ := List.mem_map.mp hs
  obtain ⟨p, hp, rfl⟩ := List.mem_map.mp ht
  exact disjoint_fixedRects_patternCells hv hq (hclear p hp)

theorem lt_of_mem_functionalCells {x : Nat × Nat}
    (hx : x ∈ unionAll (functionalCells v (alignmentCentres (matrixSize v) coords))) :
    x.1 < matrixSize v ∧ x.2 < matrixSize v := by
  obtain ⟨t, ht, hxt⟩ := mem_unionAll.mp hx
  rcases List.mem_append.mp ht with ht | ht
  · obtain ⟨q, hq, rfl⟩ := List.mem_map.mp ht
    obtain ⟨hbottom, hright⟩ := fixedRects_inside hv q hq
    rw [Rect.mem_cells] at hxt
    omega
  · obtain ⟨p, hp, rfl⟩ := List.mem_map.mp ht
    have hp := hclear p hp
    unfold Clear at hp
    rw [mem_patternCells] at hxt
    omega

/-- The cells of a matrix that are not typed data are the functional ones. -/
theorem not_data_iff {x : Nat × Nat} (hr : x.1 < matrixSize v) (hc : x.2 < matrixSize v) :
    (functionCell v coords x.1 x.2).2 ≠ .data ↔
      x ∈ unionAll (functionalCells v (alignmentCentres (matrixSize v) coords)) := by
  rw [mem_functionalCells, mem_fixedRects hv hr hc, ne_eq, functionCell_data_iff coords hv hr hc]
  constructor
  · intro h
    by_contra hnot
    obtain ⟨hfixed, hpattern⟩ := not_or.mp hnot
    refine h ⟨by omega, by omega, by omega, by omega, by omega, by omega, by omega, fun p hp hnear => hpattern ⟨p, hp, ?_⟩⟩
    exact (mem_patternCells_iff_near (hclear p hp)).mpr ⟨by omega, by omega, hnear⟩
  · rintro (hfixed | ⟨p, hp, hx⟩) ⟨h1, h2, h3, h4, h5, h6, h7, hfar⟩
    · omega
    · exact hfar p hp ((mem_patternCells_iff_near (hclear p hp)).mp hx).2.2

/-- The number of data cells and the functional ones add up to the square (R202). -/
theorem countData_add : countData (typeGrid v coords) +
    (unionAll (functionalCells v (alignmentCentres (matrixSize v) coords))).card = matrixSize v * matrixSize v := by
  have hdata : countData (typeGrid v coords) = ((Finset.range (matrixSize v) ×ˢ Finset.range (matrixSize v)).filter fun x =>
      (functionCell v coords x.1 x.2).2 = .data).card := by
    rw [typeGrid, countData_buildGrid, countP_product_range]
    exact congrArg _ (Finset.filter_congr fun x _ => beq_iff_eq)
  have hfunctional : (Finset.range (matrixSize v) ×ˢ Finset.range (matrixSize v)).filter (fun x =>
      ¬ (functionCell v coords x.1 x.2).2 = .data) =
      unionAll (functionalCells v (alignmentCentres (matrixSize v) coords)) := by
    ext x
    rw [Finset.mem_filter, Finset.mem_product, Finset.mem_range, Finset.mem_range]
    constructor
    · rintro ⟨⟨hr, hc⟩, hx⟩
      exact (not_data_iff hv hclear hr hc).mp hx
    · intro hx
      have hlt := lt_of_mem_functionalCells hv hclear hx
      exact ⟨hlt, (not_data_iff hv hclear hlt.1 hlt.2).mpr hx⟩
  rw [hdata, ← hfunctional, Finset.card_filter_add_card_filter_not, Finset.card_product, Finset.card_range]

/-- The number of data cells, set by set of functional ones. -/
theorem countData_eq (hgap : coords.Pairwise fun a b => a + 5 ≤ b) : countData (typeGrid v coords) =
    matrixSize v * matrixSize v - ((functionalCells v (alignmentCentres (matrixSize v) coords)).map Finset.card).sum := by
  rw [← card_unionAll (pairwise_disjoint_functionalCells hv hclear hgap), ← countData_add hv hclear, Nat.add_sub_cancel]

end

end Sys2Proof.Machine
end

section
/-! The default tables are well-formed (49_config_tables.md R322 to R327, Log 3). -/

namespace Sys2Proof.Machine

/-! ### Data cells (R322 (c) and (d), R326) -/

theorem defaultRom_clear : ∀ v, 1 ≤ v → v ≤ 40 → (alignOf defaultRom v).length ≤ 7 ∧
    ((alignOf defaultRom v).Pairwise fun a b => a + 5 ≤ b) ∧ (v = 1 → alignOf defaultRom v = []) ∧
    ∀ p ∈ alignmentCentres (matrixSize v) (alignOf defaultRom v), Clear v p := by
  unfold Clear
  decide +kernel

theorem defaultRom_alignPremise {v : Nat} (hv : 1 ≤ v) (hv' : v ≤ 40) : AlignPremise v (alignOf defaultRom v) := by
  obtain ⟨hlength, hgap, hnone, hclear⟩ := defaultRom_clear v hv hv'
  exact alignPremise_of_clear hv hlength hgap hnone hclear

/-- The numbers of data cells of the versions 1 to 40. -/
def dataCellList : List Nat :=
  [208, 359, 567, 807, 1079, 1383, 1568, 1936, 2336, 2768, 3232, 3728, 4256, 4651, 5243, 5867, 6523, 7211, 7931, 8683] ++
    [9252, 10068, 10916, 11796, 12708, 13652, 14628, 15371, 16411, 17483, 18587, 19723, 20891, 22091, 23008, 24272, 25568,
      26896, 28256, 29648]

theorem defaultRom_map_dataCells : (List.range' 1 40).map (dataCells defaultRom) = dataCellList := by
  have hformula : (List.range' 1 40).map (dataCells defaultRom) = (List.range' 1 40).map fun v => matrixSize v * matrixSize v -
      ((functionalCells v (alignmentCentres (matrixSize v) (alignOf defaultRom v))).map Finset.card).sum :=
    List.map_congr_left fun v hv => by
      obtain ⟨h1, h40⟩ := List.mem_range'_1.mp hv
      obtain ⟨-, hgap, -, hclear⟩ := defaultRom_clear v h1 (by omega)
      exact countData_eq h1 hclear hgap
  rw [hformula]
  decide +kernel

theorem defaultRom_dataCells {v : Nat} (hv : 1 ≤ v) (hv' : v ≤ 40) :
    dataCells defaultRom v = dataCellList.getD (v - 1) 0 := by
  rw [← defaultRom_map_dataCells, List.getD_eq_getElem _ _ (by simp; omega), List.getElem_map, List.getElem_range']
  congr 1
  omega

theorem defaultRom_fitPremise {v : Nat} (hv : 1 ≤ v) (hv' : v ≤ 40) (lc : BitVec 2) : FitPremise defaultRom v lc := by
  have hfit : ∀ v, 1 ≤ v → v ≤ 40 → ∀ lc, 8 * totalCodewords defaultRom v lc ≤ dataCellList.getD (v - 1) 0 ∧
      dataCellList.getD (v - 1) 0 - 8 * totalCodewords defaultRom v lc ≤ 7 := by
    decide +kernel
  unfold FitPremise
  rw [defaultRom_dataCells hv hv']
  exact hfit v hv hv' lc

/-! ### Plans, capacities and version codewords (R322 (a), (b) and (e), R323 (a)) -/

theorem defaultRom_planPremise : ∀ v, 1 ≤ v → v ≤ 40 → ∀ lc, PlanPremise defaultRom v lc := by
  unfold PlanPremise
  decide +kernel

theorem defaultRom_capPremise : ∀ v, 1 ≤ v → v ≤ 40 → ∀ lc, CapPremise defaultRom v lc := by
  unfold CapPremise
  decide +kernel

theorem defaultRom_verrefPremise : VerrefPremise defaultRom := by
  unfold VerrefPremise
  decide +kernel

theorem defaultRom_totalCodewords : ∀ v, 1 ≤ v → v ≤ 40 → ∀ lc,
    totalCodewords defaultRom v lc = totalCodewords defaultRom v 0 := by
  decide +kernel

/-! ### Texts that fit (R109, R110, R323 (b) and (c)) -/

/-- Three digits take ten bits, and one or two the part of ten rounded up. -/
theorem databits_numeric (len : Nat) : databits .numeric len = (10 * len + 2) / 3 := by
  have hrest : len % 3 = 0 ∨ len % 3 = 1 ∨ len % 3 = 2 := by omega
  simp only [databits]
  rcases hrest with h | h | h <;> rw [h]
  · change 10 * (len / 3) + 0 = (10 * len + 2) / 3
    omega
  · change 10 * (len / 3) + 4 = (10 * len + 2) / 3
    omega
  · change 10 * (len / 3) + 7 = (10 * len + 2) / 3
    omega

/-- A longer text needs no fewer data bits. -/
theorem databits_mono (m : Mode) : Monotone (databits m) := by
  intro len len' h
  cases m with
  | numeric =>
    rw [databits_numeric, databits_numeric]
    omega
  | alphanumeric =>
    simp only [databits]
    omega
  | byte => exact Nat.mul_le_mul_left 8 h
  | kanji => exact Nat.mul_le_mul_left 8 h

/-- A text that fits is shorter than one that does not. -/
theorem lt_of_fits {rom : Rom} {v : Nat} {lc : BitVec 2} {m : Mode} {n len : Nat} (hn : ¬ Fits rom v lc m n)
    (h : Fits rom v lc m len) : len < n := by
  by_contra hlen
  have hmono := databits_mono m (Nat.not_lt.mp hlen)
  unfold Fits needBits at hn h
  omega

/-- The modes a text is packed in (R104). -/
theorem forall_packed_mode {P : Mode → Prop} : (∀ m, m ≠ .kanji → P m) ↔ P .numeric ∧ P .alphanumeric ∧ P .byte := by
  constructor
  · intro h
    exact ⟨h _ (by decide), h _ (by decide), h _ (by decide)⟩
  · rintro ⟨hn, ha, hb⟩ m hm
    cases m with
    | numeric => exact hn
    | alphanumeric => exact ha
    | byte => exact hb
    | kanji => exact absurd rfl hm

/-- One character more than the longest texts fits nowhere. -/
theorem defaultRom_not_fits : ∀ v, 1 ≤ v → v ≤ 40 → ∀ lc, ¬ Fits defaultRom v lc .numeric 7090 ∧
    ¬ Fits defaultRom v lc .alphanumeric 4297 ∧ ¬ Fits defaultRom v lc .byte 2954 := by
  unfold Fits
  decide +kernel

theorem defaultRom_countPremise {v : Nat} (hv : 1 ≤ v) (hv' : v ≤ 40) (lc : BitVec 2) : CountPremise defaultRom v lc := by
  have hcount : ∀ v, 1 ≤ v → v ≤ 40 → ∀ lc, ¬ Fits defaultRom v lc .numeric (2 ^ ccbits .numeric v) ∧
      ¬ Fits defaultRom v lc .alphanumeric (2 ^ ccbits .alphanumeric v) ∧
      ¬ Fits defaultRom v lc .byte (2 ^ ccbits .byte v) := by
    unfold Fits
    decide +kernel
  obtain ⟨hnumeric, halpha, hbyte⟩ := hcount v hv hv' lc
  exact forall_packed_mode.mpr ⟨fun _ => lt_of_fits hnumeric, fun _ => lt_of_fits halpha, fun _ => lt_of_fits hbyte⟩

theorem defaultRom_longest {v : Nat} (hv : 1 ≤ v) (hv' : v ≤ 40) (lc : BitVec 2) (len : Nat) :
    (Fits defaultRom v lc .numeric len → len ≤ 7089) ∧ (Fits defaultRom v lc .alphanumeric len → len ≤ 4296) ∧
      (Fits defaultRom v lc .byte len → len ≤ 2953) := by
  obtain ⟨hnumeric, halpha, hbyte⟩ := defaultRom_not_fits v hv hv' lc
  exact ⟨fun h => Nat.le_of_lt_succ (lt_of_fits hnumeric h), fun h => Nat.le_of_lt_succ (lt_of_fits halpha h),
    fun h => Nat.le_of_lt_succ (lt_of_fits hbyte h)⟩

theorem defaultRom_lengthPremise {v : Nat} (hv : 1 ≤ v) (hv' : v ≤ 40) (lc : BitVec 2) : LengthPremise defaultRom v lc := by
  refine forall_packed_mode.mpr ⟨fun len h => ?_, fun len h => ?_, fun len h => ?_⟩
  · exact ((defaultRom_longest hv hv' lc len).1 h).trans (by decide)
  · exact ((defaultRom_longest hv hv' lc len).2.1 h).trans (by decide)
  · exact ((defaultRom_longest hv hv' lc len).2.2 h).trans (by decide)

/-- From a version to the next the capacity grows at least as much as the character count field. -/
theorem defaultRom_cap_growth : ∀ v, 1 ≤ v → v < 40 → ∀ lc,
    ∀ m ∈ [Mode.numeric, .alphanumeric, .byte, .kanji],
      capOf defaultRom v lc + ccbits m (v + 1) ≤ capOf defaultRom (v + 1) lc + ccbits m v := by
  decide +kernel

theorem mem_modes (m : Mode) : m ∈ [Mode.numeric, .alphanumeric, .byte, .kanji] := by
  cases m <;> decide

theorem defaultRom_fits_succ {v : Nat} (hv : 1 ≤ v) (hv' : v < 40) {lc : BitVec 2} {m : Mode} {len : Nat}
    (h : Fits defaultRom v lc m len) : Fits defaultRom (v + 1) lc m len := by
  have hgrowth := defaultRom_cap_growth v hv hv' lc m (mem_modes m)
  unfold Fits needBits at h ⊢
  omega

theorem defaultRom_monotoneFit : MonotoneFit defaultRom := by
  intro v u hv hvu hu lc m _ len h
  induction u, hvu using Nat.le_induction with
  | base => exact h
  | succ u hvu ih => exact defaultRom_fits_succ (hv.trans hvu) hu (ih (by omega))

theorem defaultRom_wellFormed : TablesWellFormed defaultRom where
  plan := defaultRom_planPremise
  fit _ hv hv' := defaultRom_fitPremise hv hv'
  align _ hv hv' := defaultRom_alignPremise hv hv'
  verref := defaultRom_verrefPremise
  cap := defaultRom_capPremise
  count _ hv hv' := defaultRom_countPremise hv hv'
  length _ hv hv' := defaultRom_lengthPremise hv hv'

/-- Settles O60: the data cells are counted pattern by pattern, the bounds on texts follow from the first text that does not
fit, and what is left is a comparison of table entries for each version and level. -/
theorem defaultTablesMeetPremises : Obligations.DefaultTablesMeetPremises := by
  have hfits : Fits defaultRom 40 0b01 .numeric 7089 ∧ Fits defaultRom 40 0b01 .alphanumeric 4296 ∧
      Fits defaultRom 40 0b01 .byte 2953 := by
    unfold Fits
    decide +kernel
  have hsizes : bitsSize defaultRom = 23648 ∧ dcwSize defaultRom = 2956 ∧ icwSize defaultRom = 3706 := by
    decide +kernel
  exact ⟨defaultRom_wellFormed, defaultRom_monotoneFit, fun v hv hv' lc len => defaultRom_longest hv hv' lc len,
    hfits.1, hfits.2.1, hfits.2.2, defaultRom_map_dataCells, defaultRom_totalCodewords, hsizes⟩

end Sys2Proof.Machine
end
